-- ==== Sys2Proof/Word.lean ====
section
/-! DEFINITION. The words of the LC-24: bytes, and the bounds of the fixed-width counters (R183). -/
namespace Sys2Proof

/-- A byte of a frame or of the configuration image (R183). -/
abbrev Byte := BitVec 8

/-- A 16-bit wrapping number: edit numbers (R115), window numbers (R100). -/
abbrev Word16 := BitVec 16

/-- A 32-bit value: fingerprints (R178), cumulative draws (R80). -/
abbrev Word32 := BitVec 32

/-- The greatest value of a 32-bit counter. -/
def max32 : Nat := 4294967295

/-- An increase "saturating" at `cap` (00_scope.md, Numbers). -/
def satAdd (cap a b : Nat) : Nat := min cap (a + b)

end Sys2Proof
end

