-- ==== Sys2Proof/Syntax.lean ====
section
/-! DEFINITION. The commands of the LC-24 (spec/opcode_table.json) and the data they carry. One constructor of `Instr` per row. -/
namespace Sys2Proof

/-- The six points P1..P6 of a station (00_scope.md, Numbering of things). -/
inductive PointId where
  | p1 | p2 | p3 | p4 | p5 | p6
  deriving DecidableEq, Repr

/-- The two inputs of a quadrature meter (R1). -/
inductive MeterInput where
  | a | b
  deriving DecidableEq, Repr

/-- Point states (2.2). -/
inductive PointState where
  | idle | seeking | priming | ready | queued | flowing | taper | held | linger | locked
  deriving DecidableEq, Repr

/-- Why a LOCKED point is locked (2.1). -/
inductive LockCause where
  | none | zone | fault | image | straps
  deriving DecidableEq, Repr

/-- End reasons of a run (2.10). -/
inductive EndReason where
  | preset | hangup | noLift | noCapacity | holdExpired | cancel | stall | reserve | quarantine | spill | meter | hose | restart
  deriving DecidableEq, Repr

/-- DENY reasons (R54). -/
inductive DenyReason where
  | starting | noPoint | locked | fault | busy | product | badPreset | quarantine | ineligible | reserve | allowance | cancelled
  deriving DecidableEq, Repr

/-- The term that set a granted preset (R29). -/
inductive Limiter where
  | requested | pointMax | allowance | reserve
  deriving DecidableEq, Repr

/-- Hours verdicts (R128). -/
inductive HoursVerdict where
  | absent | first | backwards | same | longGap | accepted | notApplied
  deriving DecidableEq, Repr

/-- Reconciliation verdicts (R104, R105). -/
inductive Verdict where
  | none | ok | gain | bad
  deriving DecidableEq, Repr

/-- Condition of a book entry (R79). -/
inductive BookCond where
  | unknown | current | stale
  deriving DecidableEq, Repr

/-- Condition of a peer demand entry (R61). -/
inductive PeerCond where
  | live | expired
  deriving DecidableEq, Repr

/-- State of a reconciliation window (R100). -/
inductive WindowState where
  | noWindow | running | due
  deriving DecidableEq, Repr

/-- Zone states (R142). -/
inductive ZoneState where
  | clear | tripped | echoed
  deriving DecidableEq, Repr

/-- Kinds of spill source (7.1). -/
inductive SourceKind where
  | sump | film | pan | estop | water | hose | loss
  deriving DecidableEq, Repr

/-- Roles of a station in PRESENCE (R183). -/
inductive Role where
  | unknown | lane | terminal | gateway
  deriving DecidableEq, Repr

/-- Product groups (00_scope.md). -/
inductive Group where
  | fuel | fluid
  deriving DecidableEq, Repr

/-- A machine tag: class 0..63, fleet 0..15, unit 1..16,383 (00_scope.md); unit 0 names no machine. -/
structure Tag where
  cls : Nat
  fleet : Nat
  unit : Nat
  deriving DecidableEq, Repr

/-- The fields of an account record that an ACCOUNT carries (R113). -/
structure AccountRec where
  tag : Tag
  edit : Word16
  origin : Nat
  hoursLast : Option Nat
  unbooked : Nat
  burnAvg : Option Nat
  burnCount : Nat
  anomaly : Bool
  shift : Nat
  takenFuel : Nat
  takenFluid : Nat
  deriving DecidableEq, Repr

/-- The six flags of a book entry, as STOCK carries them (4.2, R184). -/
structure StockFlags where
  quarantined : Bool
  receiving : Bool
  gaugeFault : Bool
  gaugeJump : Bool
  overStrap : Bool
  loss : Bool
  deriving DecidableEq, Repr

/-- The body of a PRESENCE (R170, R184). `zones` holds zones 0..7, `points` P1..P6, none for a point not configured. -/
structure PresenceBody where
  role : Role
  fingerprint : Word32
  uptime : Nat
  imageBad : Bool
  listen : Bool
  logPressing : Bool
  disagree : Bool
  uncollected : Nat
  zones : List ZoneState
  points : List (Option (PointState × LockCause))
  deriving DecidableEq, Repr

/-- The commands of the part: one constructor per row of spec/opcode_table.json. A command that is a received frame
carries the frame's source and target and its body's fields (log 17). -/
inductive Instr where
  /-- RESET_LINE_ASSERTED (R177) -/
  | resetLineAsserted
  /-- POWER_ON, or release of the reset line, with the level of the strap pins (R177) -/
  | powerOn (straps : Nat)
  /-- IMAGE_CHECK_DONE: what the configuration memory answered (none: it does not answer), and the fill-line inputs of
  positions 1..4 at the first look (R178, R92) -/
  | imageCheckDone (mem : Option (List Byte)) (fill : List Bool)
  /-- LISTEN_TIMER_EXPIRY (R181) -/
  | listenTimerExpiry
  /-- METER_PULSE (R1) -/
  | meterPulse (p : PointId) (input : MeterInput)
  /-- TEMPERATURE_SAMPLE: tenths of a degree, marked valid or invalid (R9) -/
  | temperatureSample (p : PointId) (valid : Bool) (value : Int)
  /-- SAMPLE_TIMER_EXPIRY (R11) -/
  | sampleTimerExpiry (p : PointId)
  /-- RATE_UPDATE (R16) -/
  | rateUpdate (p : PointId)
  /-- OPEN (R23) -/
  | openRequest (src tgt point : Nat) (tag : Tag) (product preset : Nat) (hours : Option Nat) (shift : Nat)
  /-- HOLD (R42); run none is an absent run number -/
  | hold (src tgt point : Nat) (run : Option Nat)
  /-- RESUME (R44) -/
  | resume (src tgt point : Nat) (run : Option Nat)
  /-- CANCEL (R45) -/
  | cancel (src tgt point : Nat) (run : Option Nat)
  /-- UNLOCK of a point (R52) -/
  | unlockPoint (src tgt point : Nat)
  /-- UNLOCK of a tank (R95) -/
  | unlockTank (src tgt tank : Nat)
  /-- NOZZLE_LIFT (R32) -/
  | nozzleLift (p : PointId)
  /-- HANG_UP (R38) -/
  | hangUp (p : PointId)
  /-- RESTART_GUARD_EXPIRY (R31) -/
  | restartGuardExpiry (p : PointId)
  /-- PRIME_TIMER_EXPIRY (R31) -/
  | primeTimerExpiry (p : PointId)
  /-- NO_LIFT_TIMER_EXPIRY (R33) -/
  | noLiftTimerExpiry (p : PointId)
  /-- QUEUE_TIMER_EXPIRY (R34) -/
  | queueTimerExpiry (p : PointId)
  /-- HOLD_TIMER_EXPIRY (R43) -/
  | holdTimerExpiry (p : PointId)
  /-- STALL_TIMER_EXPIRY (R39) -/
  | stallTimerExpiry (p : PointId)
  /-- LINGER_TIMER_EXPIRY (R51) -/
  | lingerTimerExpiry (p : PointId)
  /-- PROGRESS_TIMER_EXPIRY (R53) -/
  | progressTimerExpiry (p : PointId)
  /-- DRAW (R60) -/
  | draw (src tgt tank demand flowing : Nat) (cumulative : Word32)
  /-- PEER_DEMAND_EXPIRY (R61) -/
  | peerDemandExpiry (station tank : Nat)
  /-- DRAW_TIMER_EXPIRY (R73) -/
  | drawTimerExpiry (tank : Nat)
  /-- STOCK (R83) -/
  | stock (src tgt tank value : Nat) (mark : Byte) (flags : StockFlags) (verdict : Verdict) (variance : Int)
  /-- STALENESS_TIMER_EXPIRY (R79) -/
  | stalenessTimerExpiry (tank : Nat)
  /-- GAUGE_SAMPLE: level in mm, tank temperature in tenths of a degree (R86) -/
  | gaugeSample (pos : Nat) (valid : Bool) (level temp : Int)
  /-- GAUGE_TIMER_EXPIRY (R86) -/
  | gaugeTimerExpiry (pos : Nat)
  /-- FILL_LINE_ACTIVE (R92) -/
  | fillLineActive (pos : Nat)
  /-- FILL_LINE_INACTIVE (R92) -/
  | fillLineInactive (pos : Nat)
  /-- SETTLE_TIMER_EXPIRY (R92) -/
  | settleTimerExpiry (pos : Nat)
  /-- LENGTH_TIMER_EXPIRY (R103) -/
  | lengthTimerExpiry (pos : Nat)
  /-- SEEK (R123) -/
  | seek (src tgt : Nat) (tag : Tag)
  /-- ACCOUNT (R124) -/
  | account (src tgt : Nat) (rec : AccountRec)
  /-- SEEK_WINDOW_EXPIRY (R121) -/
  | seekWindowExpiry (tag : Tag)
  /-- SPILL_LINE_SAMPLE: the level of line 1..12 (R136) -/
  | spillLineSample (line : Nat) (high : Bool)
  /-- WATER_BOTTOM_SAMPLE: the level of line 1..4 (R136) -/
  | waterBottomSample (pos : Nat) (high : Bool)
  /-- REPEAT_TIMER_EXPIRY (R143) -/
  | repeatTimerExpiry (zone : Nat)
  /-- SPILL (R144) -/
  | spill (src tgt zone : Nat) (kind : SourceKind) (index : Nat)
  /-- ALLCLEAR (R145) -/
  | allclear (src tgt zone : Nat)
  /-- COLLECT (R158) -/
  | collect (src tgt first count : Nat)
  /-- CONFIRM (R162) -/
  | confirm (src tgt number : Nat)
  /-- PRESENCE (R168) -/
  | presence (src tgt : Nat) (body : PresenceBody)
  /-- PRESENCE_TIMER_EXPIRY (R170) -/
  | presenceTimerExpiry
  /-- PEER_ABSENCE (R169) -/
  | peerAbsence (station : Nat)
  /-- ATTEMPT_START: how long the line has been idle, in units of 0.01 ms (R172, log 32) -/
  | attemptStart (idle : Nat)
  /-- FRAME_SENT (R172) -/
  | frameSent
  /-- ATTEMPT_BROKEN (R172) -/
  | attemptBroken
  /-- ASK POINT (R57) -/
  | askPoint (src tgt point : Nat)
  /-- ASK TANK (R97) -/
  | askTank (src tgt tank : Nat)
  /-- ASK ACCOUNT (R132) -/
  | askAccount (src tgt : Nat) (tag : Tag)
  /-- ASK ZONE (R148) -/
  | askZone (src tgt zone : Nat)
  /-- ASK RECON (R110) -/
  | askRecon (src tgt tank : Nat)
  /-- ASK PEERS (R75) -/
  | askPeers (src tgt : Nat)
  /-- RESTART (R176) -/
  | restart (src tgt : Nat) (fingerprint : Word32)
  /-- FRAME_HEARD: the bytes of a frame heard on the line (R166, R184) -/
  | frameHeard (bytes : List Byte)
  deriving DecidableEq, Repr

end Sys2Proof
end

