-- ==== Sys2Proof/Decode.lean ====
section
/-! DEFINITION. The command that a word spells: none, since no row of spec/opcode_table.json gives bits (log 1). -/
namespace Sys2Proof

/-- No word spells a command of this part. -/
def decodeTableWord (_nbits _w : Nat) : Option Instr := none

end Sys2Proof
end

