-- ==== Sys2Proof/Config.lean ====
section
/-! DEFINITION. What the part fixes (00_scope.md, Fixed intervals) and the free values: constants with no body, which no proof can see into. -/
namespace Sys2Proof.Config

/-- Free value (logs 6, 7, 8): the n-th free choice of an order that the manual leaves open. The step applies it to
the counter `State.free`. -/
opaque freeChoice : Nat → Nat

/-- Free value (log 11): the measured rate found when floor(accumulator x 12 / 5) is above 65,535 (R16, 1.1). -/
opaque freeRate : Nat → BitVec 16

/-- Free value (log 12): the accepted standard stock when the computed cL do not fit 32 bits (R89, 4.2). -/
opaque freeStock : Nat → BitVec 32

/-- Free value (log 13): what the bytes of a field of the given width carry when the value does not fit them (R183). -/
opaque freeField : Nat → Nat → Nat

/-- Free value (log 13): the same for a signed value that does not fit its two's complement field. -/
opaque freeSigned : Int → BitVec 32

/-- Point rate update, while the valve is open (R16). -/
def rateUpdateMs : Nat := 250
/-- The 2 s after which a missing temperature sample is seen (R11). -/
def sampleMs : Nat := 2000
/-- PROGRESS to a terminal (R53). -/
def progressMs : Nat := 1000
/-- Longest QUEUED wait (R34). -/
def queueMs : Nat := 120000
/-- The repeat of DRAW (R73). -/
def drawMs : Nat := 1000
/-- The expiry of a peer's demand entry (R61). -/
def demandMs : Nat := 3000
/-- Book entry STALE (R79). -/
def staleMs : Nat := 60000
/-- The gauge timer after a sample (R86). -/
def gaugeFirstMs : Nat := 15000
/-- The gauge timer after an expiry (R86). -/
def gaugeNextMs : Nat := 10000
/-- Seek reply window (R118). -/
def seekMs : Nat := 250
/-- SPILL repeat while TRIPPED (R143). -/
def repeatMs : Nat := 2000
/-- PRESENCE interval (R170). -/
def presenceMs : Nat := 5000
/-- Peer absence (R169). -/
def absenceMs : Nat := 15000
/-- Listen period (R181). -/
def listenMs : Nat := 6000
/-- Creep above which the HOSE source goes WET, in cL (R138). -/
def hoseCreep : Nat := 200
/-- The greatest delta of a peer's cumulative draw that is applied, in cL (R81). -/
def maxDelta : Nat := 10000000
/-- The greatest hour reading, in tenths of an hour (R23). -/
def maxHours : Nat := 9999999
/-- The change in demand that calls for a DRAW at once, in L/min (R73). -/
def drawStep : Nat := 50
/-- The slots of the transmit queue (R171). -/
def queueSlots : Nat := 8
/-- The broken attempts at which a slot of class 1, 2 or 3 is dropped (R173). -/
def maxAttempts : Nat := 16
/-- The records of the Delivery Log's ring (R156). -/
def logRecords : Nat := 256
/-- The records of the Account Cache (R114). -/
def cacheRecords : Nat := 64
/-- The seeks pending at a time (R122). -/
def maxSeeks : Nat := 6
/-- The results in a home tank's ring (R106). -/
def ringResults : Nat := 8
/-- The longest image (R178). -/
def imageBytes : Nat := 4096

end Sys2Proof.Config
end

