-- ==== Sys2Proof/Machine/Types.lean ====
section
/-! DEFINITION. The data the blocks hold besides their state proper: the configuration as read (10.2), the records of the log (8.1), and the frames the station forms (9.1, 11.2), TELLs included. -/
namespace Sys2Proof.Machine

/-- One value per point. -/
structure PerPoint (α : Type) where
  p1 : α
  p2 : α
  p3 : α
  p4 : α
  p5 : α
  p6 : α
  deriving DecidableEq, Repr

/-! ### The configuration as read (10.2, R186) -/

inductive TempMode where
  | auto | forced
  deriving DecidableEq, Repr

inductive Polarity where
  | wetHigh | wetLow
  deriving DecidableEq, Repr

inductive Combine where
  | and | or | nand | nor
  deriving DecidableEq, Repr

structure ProductCfg where
  group : Group
  alpha : Nat
  deriving DecidableEq, Repr

structure ClassCfg where
  priority : Nat
  limitFuel : Nat
  limitFluid : Nat
  deriving DecidableEq, Repr

structure TankCfg where
  product : Nat
  home : Nat
  capacity : Nat
  floor0 : Nat
  floor1 : Nat
  floor2 : Nat
  floor3 : Nat
  header : Nat
  zone : Nat
  windowMin : Nat
  tolMin : Nat
  tolPpt : Nat
  lossOn : Nat
  lossOff : Nat
  deriving DecidableEq, Repr

/-- An eligibility filter (R26). -/
structure Filter where
  enabled : Bool
  clsPattern : Nat
  clsMask : Nat
  fleetPattern : Nat
  fleetMask : Nat
  deriving DecidableEq, Repr

structure PointCfg where
  product : Nat
  tank : Nat
  zone : Nat
  k : Nat
  mf : Nat
  maxRate : Nat
  floorRate : Nat
  ramp : Nat
  taperVol : Nat
  taperRate : Nat
  maxRun : Nat
  mode : TempMode
  forced : Int
  prime : Nat
  guard : Nat
  noLift : Nat
  hold : Nat
  linger : Nat
  stall : Nat
  mismatch : Nat
  filter1 : Filter
  filter2 : Filter
  logic : Combine
  deriving DecidableEq, Repr

structure HomeCfg where
  strap : List (Nat × Nat)
  jump : Nat
  settle : Nat
  deriving DecidableEq, Repr

/-- The settings of a filtered line (R135). -/
structure LineCfg where
  kind : SourceKind
  zone : Nat
  polarity : Polarity
  on : Nat
  off : Nat
  deriving DecidableEq, Repr

/-- The image as read: `products` holds products 1..15, `classes` classes 0..63, `tanks` tanks 1..16, `homes` the
home-tank positions 1..4 (none where the position has no home tank), `lines` spill lines 1..12 (none where unused),
`waters` water-bottom lines 1..4. A point not configured is none. -/
structure Image where
  products : List ProductCfg
  classes : List ClassCfg
  tanks : List TankCfg
  station : Nat
  points : PerPoint (Option PointCfg)
  homes : List (Option HomeCfg)
  lines : List (Option LineCfg)
  waters : List LineCfg
  beaconMask : Byte
  threshold : Nat
  deriving DecidableEq, Repr

/-! ### The delivery record (8.1) and the window result (R100) -/

structure DeliveryRec where
  number : Nat
  run : Nat
  point : PointId
  tank : Nat
  product : Nat
  tag : Tag
  terminal : Nat
  shift : Nat
  hours : Option Nat
  verdict : HoursVerdict
  requested : Nat
  granted : Nat
  limiter : Limiter
  gross : Nat
  standard : Nat
  vcf : Nat
  duration : Nat
  reason : EndReason
  clamped : Bool
  dropout : Bool
  tempHeld : Bool
  anomaly : Bool
  burnSample : Option Nat
  deriving DecidableEq, Repr

structure WinResult where
  number : Word16
  g : Int
  m : Nat
  v : Int
  t : Nat
  verdict : Verdict
  deriving DecidableEq, Repr

/-! ### TELL contents (R57, R75, R97, R110, R132, R148) -/

/-- The subject of an ASK and of the TELL that answers it (R175). -/
inductive Subject where
  | point (n : Nat)
  | tank (n : Nat)
  | account (tag : Tag)
  | zone (z : Nat)
  | recon (n : Nat)
  | peers
  deriving DecidableEq, Repr

/-- What a POINT TELL shows of a live run (R57). -/
structure TellRun where
  number : Nat
  tag : Tag
  granted : Nat
  limiter : Limiter
  terminal : Nat
  deriving DecidableEq, Repr

structure PointTell where
  state : PointState
  lockCause : LockCause
  faultMeter : Bool
  faultHose : Bool
  pump : Bool
  valveOpen : Bool
  commanded : Nat
  offHook : Bool
  measured : Nat
  vcf : Nat
  probeFault : Bool
  creep : Nat
  forward : Nat
  reverse : Nat
  unmatched : Nat
  runGross : Nat
  runStandard : Nat
  run : Option TellRun
  seekTag : Option Tag
  deriving DecidableEq, Repr

structure TankTell where
  tank : Nat
  product : Nat
  home : Nat
  cond : BookCond
  staleLeft : Nat
  stockAtMark : Nat
  mark : Byte
  drawn : Nat
  bookStock : Nat
  flags : StockFlags
  verdict : Verdict
  variance : Int
  ownDraw : Word32
  baselines : Nat
  deriving DecidableEq, Repr

structure HomeTell where
  level : Option Nat
  volume : Nat
  stock : Nat
  held : Nat
  rejected : Nat
  temp : Int
  tempHeld : Bool
  fillActive : Bool
  settleLeft : Nat
  waterWet : Bool
  waterSticky : Bool
  deriving DecidableEq, Repr

structure SourceTell where
  kind : SourceKind
  index : Nat
  wet : Bool
  sticky : Bool
  count : Option Nat
  deriving DecidableEq, Repr

structure ZoneTell where
  zone : Nat
  state : ZoneState
  trip : Option (SourceKind × Nat)
  repeatLeft : Nat
  lastSpill : Option Nat
  age : Nat
  maskBit : Bool
  beacon : Bool
  sources : Nat
  wet : Nat
  deriving DecidableEq, Repr

structure ReconTell where
  tank : Nat
  window : WindowState
  number : Word16
  g0 : Nat
  m : Nat
  since : Nat
  lengthLeft : Nat
  bad : Nat
  ok : Nat
  lossOn : Nat
  lossOff : Nat
  lossWet : Bool
  newest : Option WinResult
  results : Nat
  deriving DecidableEq, Repr

structure PeersTell where
  tank : Nat
  header : Nat
  liveSum : Nat
  available : Nat
  own : Nat
  announced : Nat
  floors : Nat
  admitted : List (PointId × PointState × Nat × Nat)
  queue : List (PointId × Nat)
  deriving DecidableEq, Repr

/-- What a PEERS TELL shows of one peer's entry (R75): the age in ms. -/
structure PeerTell where
  station : Nat
  cond : PeerCond
  demand : Nat
  flowing : Nat
  age : Nat
  deriving DecidableEq, Repr

/-- The answer of a TELL with its content (R184). -/
inductive Answer where
  | nothing
  | refusedWet
  | point (t : PointTell)
  | tank (t : TankTell)
  | home (t : HomeTell)
  | account (rec : AccountRec) (position attached : Nat) (runs : List (PointId × Nat))
  | pendingSeek (tag : Tag) (waiting : List PointId) (left : Nat) (candidate : Option (Word16 × Nat × Nat))
  | zone (t : ZoneTell)
  | sources (l : List SourceTell)
  | recon (t : ReconTell)
  | ring (l : List (Word16 × Verdict × Int))
  | peers (t : PeersTell)
  | peerEntries (tank : Nat) (l : List PeerTell)
  deriving DecidableEq, Repr

/-! ### Frames the station forms (9.1, R184) -/

structure CloseBody where
  point : Nat
  tag : Tag
  run : Nat
  log : Nat
  reason : EndReason
  granted : Nat
  gross : Nat
  standard : Nat
  vcf : Nat
  clamped : Bool
  dropout : Bool
  tempHeld : Bool
  anomaly : Bool
  faulted : Bool
  deriving DecidableEq, Repr

/-- The bodies of the 12 kinds the station sends. -/
inductive Body where
  | grant (point : Nat) (tag : Tag) (run requested granted : Nat) (limiter : Limiter) (clamped : Bool)
  | deny (point : Nat) (tag : Tag) (reason : DenyReason)
  | progress (point run : Nat) (state : PointState) (gross standard commanded : Nat) (probeFault : Bool)
  | close (b : CloseBody)
  | draw (tank demand flowing : Nat) (cumulative : Word32)
  | stock (tank value : Nat) (mark : Byte) (flags : StockFlags) (verdict : Verdict) (variance : Int)
  | seek (tag : Tag)
  | account (rec : AccountRec)
  | spill (zone : Nat) (kind : SourceKind) (index : Nat)
  | tell (subject : Subject) (part : Nat) (last : Bool) (answer : Answer)
  | batch (part : Nat) (last : Bool) (newest uncollected : Nat) (rec : Option DeliveryRec)
  | presence (b : PresenceBody)
  deriving DecidableEq, Repr

/-- A frame as a block forms it: the target and the body. Source and sequence number join at the attempt (R165). -/
structure Frame where
  target : Nat
  body : Body
  deriving DecidableEq, Repr

end Sys2Proof.Machine
end

