-- ==== Sys2Proof/Machine/State.lean ====
section
/-! DEFINITION. The state of the LC-24: every item the chapters' tables give the blocks, as plain data, and the state while the reset line is held. -/
namespace Sys2Proof.Machine

/-- A timer: stopped, or running with its time left in ms (log 2, log 3). -/
abbrev Timer := Option Nat

/-! ### Meter Channel (1.1) -/

inductive Pairing where
  | none | aWaiting | bWaiting
  deriving DecidableEq, Repr

structure Channel where
  pairing : Pairing
  forward : Nat
  reverse : Nat
  unmatched : Nat
  streak : Nat
  grossRes : Nat
  runGross : Nat
  stdRes : Nat
  runStd : Nat
  lastTemp : Int
  goodSeen : Bool
  probeCount : Nat
  probeFault : Bool
  vcf : Nat
  rateAcc : Nat
  rate : Nat
  rateTimer : Timer
  creep : Nat
  sampleTimer : Timer
  deriving DecidableEq, Repr

/-- The values of R19 in AUTO mode, with the sample timer stopped (R18). -/
def Channel.reset : Channel where
  pairing := .none
  forward := 0
  reverse := 0
  unmatched := 0
  streak := 0
  grossRes := 0
  runGross := 0
  stdRes := 0
  runStd := 0
  lastTemp := 150
  goodSeen := false
  probeCount := 0
  probeFault := false
  vcf := 100000
  rateAcc := 0
  rate := 0
  rateTimer := .none
  creep := 0
  sampleTimer := .none

/-! ### Point Controller (2.1) -/

/-- The pending OPEN of a SEEKING point (R24). -/
structure OpenReq where
  terminal : Nat
  tag : Tag
  preset : Nat
  hours : Option Nat
  shift : Nat
  deriving DecidableEq, Repr

/-- The run record (2.1). `firstFlowing` is the time of the uptime clock in ms. -/
structure RunRec where
  number : Nat
  terminal : Nat
  tag : Tag
  priority : Nat
  product : Nat
  group : Group
  tank : Nat
  zone : Nat
  shift : Nat
  hours : Option Nat
  requested : Nat
  granted : Nat
  limiter : Limiter
  clamped : Bool
  dropout : Bool
  tempHeld : Bool
  lifted : Bool
  firstFlowing : Option Nat
  deriving DecidableEq, Repr

/-- A Point Controller, with the target rate the Flow Allotter gives its point. `valve` is none when closed, and
the commanded rate when open. -/
structure Point where
  st : PointState
  openReq : Option OpenReq
  run : Option RunRec
  faultMeter : Bool
  faultHose : Bool
  lockCause : LockCause
  permanent : LockCause
  pump : Bool
  valve : Option Nat
  offHook : Bool
  guard : Timer
  prime : Timer
  noLift : Timer
  queue : Timer
  hold : Timer
  stall : Timer
  linger : Timer
  progress : Timer
  target : Nat
  deriving DecidableEq, Repr

/-- A point as R22 gives it, its guard stopped. -/
def Point.reset : Point where
  st := .idle
  openReq := .none
  run := .none
  faultMeter := false
  faultHose := false
  lockCause := .none
  permanent := .none
  pump := false
  valve := .none
  offHook := false
  guard := .none
  prime := .none
  noLift := .none
  queue := .none
  hold := .none
  stall := .none
  linger := .none
  progress := .none
  target := 0

/-! ### Flow Allotter (3.1) -/

structure PeerEntry where
  station : Nat
  demand : Nat
  flowing : Nat
  ageMs : Nat
  cond : PeerCond
  deriving DecidableEq, Repr

structure TankAllot where
  tank : Nat
  peers : List PeerEntry
  admitted : List PointId
  queue : List PointId
  own : Nat
  announced : Nat
  announcedDraw : Word32
  timer : Timer
  deriving DecidableEq, Repr

/-! ### Stock Book (4.2, 4.5) and Reconciler (5.1) -/

structure BookEntry where
  tank : Nat
  product : Nat
  home : Nat
  cond : BookCond
  stockAtMark : Nat
  mark : Byte
  drawn : Nat
  flags : StockFlags
  verdict : Verdict
  variance : Int
  staleTimer : Timer
  baselines : List (Nat × Word32)
  ownDraw : Word32
  deriving DecidableEq, Repr

structure Gauge where
  held : Nat
  rejected : Nat
  lastLevel : Option Nat
  lastVolume : Nat
  lastStock : Nat
  lastTemp : Int
  tempHeld : Bool
  timer : Timer
  deriving DecidableEq, Repr

structure Recon where
  window : WindowState
  number : Word16
  next : Word16
  g0 : Nat
  m : Nat
  start : Nat
  length : Timer
  bad : Nat
  ok : Nat
  ring : List WinResult
  deriving DecidableEq, Repr

/-- A filtered line's source (R136). -/
structure LineSource where
  wet : Bool
  count : Nat
  sticky : Bool
  deriving DecidableEq, Repr

/-- A home tank's gauge channel, fill line, Reconciler set, LOSS source and water-bottom source. The list of home
tanks is in position order (R77). -/
structure HomeTank where
  tank : Nat
  gauge : Gauge
  fillActive : Bool
  settle : Timer
  recon : Recon
  lossWet : Bool
  lossSticky : Bool
  water : LineSource
  deriving DecidableEq, Repr

/-! ### Account Cache (6.1, 6.3) -/

structure CacheRec where
  acc : AccountRec
  attached : Nat
  deriving DecidableEq, Repr

/-- A pending seek (6.3); the candidate stands with the station that sent it. -/
structure Seek where
  tag : Tag
  waiting : List PointId
  shift : Nat
  candidate : Option (AccountRec × Nat)
  left : Nat
  deriving DecidableEq, Repr

/-- The Account Cache: records in recency order, position 1 first; seeks in start order. -/
structure Accounts where
  cache : List CacheRec
  seeks : List Seek
  deriving DecidableEq, Repr

/-! ### Spill Monitor (7.1, 7.2, 7.4) -/

structure HoseSource where
  wet : Bool
  sticky : Bool
  overRate : Nat
  deriving DecidableEq, Repr

structure ZoneRec where
  zone : Nat
  st : ZoneState
  trip : Option (SourceKind × Nat)
  rpt : Timer
  lastSpill : Option Nat
  ageMs : Nat
  deriving DecidableEq, Repr

structure Spill where
  lines : List LineSource
  hose : PerPoint HoseSource
  zones : List ZoneRec
  beacon : Bool
  deriving DecidableEq, Repr

/-! ### Delivery Log (8.3, 8.4) -/

structure LogRec where
  entry : DeliveryRec
  collected : Bool
  deriving DecidableEq, Repr

/-- The COLLECT being answered. `waiting` says that one of its BATCHes is in the transmit queue. -/
structure Collection where
  collector : Nat
  next : Nat
  remaining : Nat
  part : Nat
  waiting : Bool
  deriving DecidableEq, Repr

/-- The Delivery Log: records oldest first. -/
structure DeliveryLog where
  records : List LogRec
  next : Nat
  uncollected : Nat
  pressing : Bool
  collection : Option Collection
  deriving DecidableEq, Repr

/-! ### Link Controller (9.3, 9.5) -/

structure PresenceEntry where
  station : Nat
  fingerprint : Option Word32
  uptime : Option Nat
  ageMs : Nat
  absent : Bool
  disagreeing : Bool
  deriving DecidableEq, Repr

/-- A slot of the transmit queue. `ofCollection` marks the waiting BATCH of the collection in hand (R159);
`withdrawn` marks a slot withdrawn while on the line (R173). -/
structure Slot where
  frame : Frame
  attempts : Nat
  onLine : Bool
  pending : Option Frame
  seq : Option Byte
  withdrawn : Bool
  ofCollection : Bool
  deriving DecidableEq, Repr

/-- The attempt in progress: the bytes driven onto the line, and whether its slot was cleared by a RESTART (R176). -/
structure Attempt where
  bytes : List Byte
  orphan : Bool
  deriving DecidableEq, Repr

/-- The Link Controller: the queue's slots are in age order, oldest first. -/
structure Link where
  presence : List PresenceEntry
  presenceTimer : Timer
  seq : Byte
  queue : List Slot
  attempt : Option Attempt
  deriving DecidableEq, Repr

/-! ### Start-up Loader (10) -/

/-- The phases of R177; `resetHeld` is the reset line held, in which the station holds no state. -/
inductive Phase where
  | resetHeld | loading | listening | running
  deriving DecidableEq, Repr

/-- A frame of the restart list; `superseded` says that a frame of its kind and tank was queued since (R182). -/
structure Listed where
  frame : Frame
  superseded : Bool
  deriving DecidableEq, Repr

structure Loader where
  phase : Phase
  strap : Nat
  image : Option Image
  imageOk : Bool
  fingerprint : Word32
  listen : Timer
  restartList : List Listed
  clockMs : Nat
  deriving DecidableEq, Repr

/-- The model's own marks of the event in hand, all clear between events: frames go to the restart list (R182, step 1);
a restart-list handing is due at the event's end; one was made in this event; the tank and the undelivered part of each run
that was tested and has ended in this event (R40). -/
structure EventMarks where
  forming : Bool
  handDue : Bool
  handDone : Bool
  ended : List (Nat × Nat)
  deriving DecidableEq, Repr

def EventMarks.clear : EventMarks where
  forming := false
  handDue := false
  handDone := false
  ended := []

/-- Why a step stops with a fault: nothing in the spec stops the part, so there is no such reason. -/
inductive Fault where
  deriving DecidableEq, Repr

/-- Why a step has no meaning. -/
inductive Refusal where
  /-- raised by an arm of `exec` whose command has no meaning yet (safe); no arm raises it now -/
  | notModelled (mnemonic : String)
  deriving DecidableEq, Repr

structure State where
  pending : List Instr
  free : Nat
  marks : EventMarks
  loader : Loader
  chans : PerPoint Channel
  points : PerPoint Point
  nextRun : Nat
  allot : List TankAllot
  book : List BookEntry
  homes : List HomeTank
  accounts : Accounts
  spill : Spill
  log : DeliveryLog
  link : Link
  deriving DecidableEq, Repr

/-- The same value at every point. -/
def PerPoint.all {α : Type} (a : α) : PerPoint α := ⟨a, a, a, a, a, a⟩

/-- The state while the reset line is held (R177): outputs off, nothing held; each item at its value after power-on
where it has one without a configuration (log 4). -/
def State.reset : State where
  pending := []
  free := 0
  marks := .clear
  loader :=
    { phase := .resetHeld
      strap := 0
      image := .none
      imageOk := false
      fingerprint := 0
      listen := .none
      restartList := []
      clockMs := 0 }
  chans := .all .reset
  points := .all .reset
  nextRun := 1
  allot := []
  book := []
  homes := []
  accounts := { cache := [], seeks := [] }
  spill :=
    { lines := List.replicate 12 { wet := false, count := 0, sticky := false }
      hose := .all { wet := false, sticky := false, overRate := 0 }
      zones := []
      beacon := false }
  log := { records := [], next := 1, uncollected := 0, pressing := false, collection := .none }
  link := { presence := [], presenceTimer := .none, seq := 0, queue := [], attempt := .none }

end Sys2Proof.Machine
end

