-- ==== Sys2Proof/Machine/Fields.lean ====
section
/-! DEFINITION. Access to the state's parts: points by number, table rows by key, timers, and one update function per block of `State`. -/
namespace Sys2Proof.Machine

/-! ### Points -/

/-- The number of a point, P1..P6. -/
def pointNum : PointId → Nat
  | .p1 => 1
  | .p2 => 2
  | .p3 => 3
  | .p4 => 4
  | .p5 => 5
  | .p6 => 6

/-- The point of a number; none outside 1..6. -/
def pointOf : Nat → Option PointId
  | 1 => some .p1
  | 2 => some .p2
  | 3 => some .p3
  | 4 => some .p4
  | 5 => some .p5
  | 6 => some .p6
  | _ => none

/-- The points in order. -/
def allPoints : List PointId := [.p1, .p2, .p3, .p4, .p5, .p6]

def PerPoint.get {α : Type} (v : PerPoint α) : PointId → α
  | .p1 => v.p1
  | .p2 => v.p2
  | .p3 => v.p3
  | .p4 => v.p4
  | .p5 => v.p5
  | .p6 => v.p6

def PerPoint.set {α : Type} (v : PerPoint α) (p : PointId) (a : α) : PerPoint α :=
  match p with
  | .p1 => { v with p1 := a }
  | .p2 => { v with p2 := a }
  | .p3 => { v with p3 := a }
  | .p4 => { v with p4 := a }
  | .p5 => { v with p5 := a }
  | .p6 => { v with p6 := a }

/-! ### Rows of a table -/

/-- The n-th item, counting from 1. -/
def nth1 {α : Type} (l : List α) : Nat → Option α
  | 0 => none
  | n + 1 => l[n]?

/-- Change the n-th item, counting from 1. -/
def modNth1 {α : Type} (l : List α) (n : Nat) (f : α → α) : List α :=
  match n with
  | 0 => l
  | n + 1 => l.modify n f

/-- Change every row that `q` picks. -/
def modWhere {α : Type} (q : α → Bool) (f : α → α) (l : List α) : List α :=
  l.map fun a => if q a then f a else a

/-- Put a row into a table kept in rising order of `key`, in place of the row with its key if there is one. -/
def insertRow {α : Type} (key : α → Nat) (a : α) : List α → List α
  | [] => [a]
  | b :: rest =>
    if key a < key b then a :: b :: rest
    else if key a = key b then a :: rest
    else b :: insertRow key a rest

/-! ### Timers -/

/-- Start a timer of `ms`. A configured time of 0 has passed at once: the timer does not run (log 14). -/
def startTimer (ms : Nat) : Timer := if ms = 0 then none else some ms

/-- Seconds as ms. -/
def secs (n : Nat) : Nat := n * 1000

/-- A timer's time left in ms, 0 when stopped. -/
def leftMs (t : Timer) : Nat := t.getD 0

/-- A timer's time left in whole seconds, 0 when stopped. -/
def leftSecs (t : Timer) : Nat := leftMs t / 1000

/-! ### Blocks of the state -/

namespace State

def getChan (s : State) (p : PointId) : Channel := s.chans.get p
def setChan (s : State) (p : PointId) (c : Channel) : State := { s with chans := s.chans.set p c }
def getPoint (s : State) (p : PointId) : Point := s.points.get p
def setPoint (s : State) (p : PointId) (x : Point) : State := { s with points := s.points.set p x }
def setLoader (s : State) (x : Loader) : State := { s with loader := x }
def setAllots (s : State) (x : List TankAllot) : State := { s with allot := x }
def setBook (s : State) (x : List BookEntry) : State := { s with book := x }
def setHomes (s : State) (x : List HomeTank) : State := { s with homes := x }
def setAccounts (s : State) (x : Accounts) : State := { s with accounts := x }
def setSpill (s : State) (x : Spill) : State := { s with spill := x }
def setLog (s : State) (x : DeliveryLog) : State := { s with log := x }
def setLink (s : State) (x : Link) : State := { s with link := x }
def setMarks (s : State) (x : EventMarks) : State := { s with marks := x }
def setFree (s : State) (n : Nat) : State := { s with free := n }
def setNextRun (s : State) (n : Nat) : State := { s with nextRun := n }

/-! #### The book, the allotter, the home tanks -/

/-- The book entry of a tank (R77). -/
def entry (s : State) (tank : Nat) : Option BookEntry := s.book.find? (·.tank == tank)

def modEntry (s : State) (tank : Nat) (f : BookEntry → BookEntry) : State :=
  s.setBook (modWhere (·.tank == tank) f s.book)

/-- The Flow Allotter's state of a tank (R59). -/
def tankAllot (s : State) (tank : Nat) : Option TankAllot := s.allot.find? (·.tank == tank)

def modAllot (s : State) (tank : Nat) (f : TankAllot → TankAllot) : State :=
  s.setAllots (modWhere (·.tank == tank) f s.allot)

/-- The home tank in a position 1..4 (R77). -/
def homeAt (s : State) (pos : Nat) : Option HomeTank := nth1 s.homes pos

/-- The home tank of a tank number. -/
def homeOf (s : State) (tank : Nat) : Option HomeTank := s.homes.find? (·.tank == tank)

def modHome (s : State) (tank : Nat) (f : HomeTank → HomeTank) : State :=
  s.setHomes (modWhere (·.tank == tank) f s.homes)

/-- The zone record of a zone the station takes part in (R142). -/
def zoneRec (s : State) (z : Nat) : Option ZoneRec := s.spill.zones.find? (·.zone == z)

def modZone (s : State) (z : Nat) (f : ZoneRec → ZoneRec) : State :=
  s.setSpill { s.spill with zones := modWhere (·.zone == z) f s.spill.zones }

def getHose (s : State) (p : PointId) : HoseSource := s.spill.hose.get p

def setHose (s : State) (p : PointId) (h : HoseSource) : State :=
  s.setSpill { s.spill with hose := s.spill.hose.set p h }

/-! #### The configuration -/

/-- The configuration in force: none at a station whose image status is IMAGE_BAD (R179). -/
def cfg (s : State) : Option Image := if s.loader.imageOk then s.loader.image else none

/-- A configured point's settings; none for a point not configured, or with IMAGE_BAD (R18, R22). -/
def pointCfg (s : State) (p : PointId) : Option PointCfg := s.cfg.bind fun c => c.points.get p

def productCfg (s : State) (n : Nat) : Option ProductCfg := s.cfg.bind fun c => nth1 c.products n

def tankCfg (s : State) (n : Nat) : Option TankCfg := s.cfg.bind fun c => nth1 c.tanks n

def classCfg (s : State) (n : Nat) : Option ClassCfg := s.cfg.bind fun c => c.classes[n]?

def homeCfg (s : State) (pos : Nat) : Option HomeCfg := s.cfg.bind fun c => (nth1 c.homes pos).bind id

/-- The strap reading is the station's own number (R165). -/
def own (s : State) : Nat := s.loader.strap

/-- Whether the blocks take events: the phases after LOADING (R177). -/
def up (s : State) : Bool := s.loader.phase == .listening || s.loader.phase == .running

/-- The configured points, in order. -/
def configured (s : State) : List PointId := allPoints.filter fun p => (s.pointCfg p).isSome

/-- The tank a configured point draws from. -/
def tankOf (s : State) (p : PointId) : Option Nat := (s.pointCfg p).map (·.tank)

/-- The configured points that draw from a tank. -/
def pointsOn (s : State) (tank : Nat) : List PointId := allPoints.filter fun p => s.tankOf p == some tank

/-- The zone of a point: its configured zone; zone 0 for each point of a station with IMAGE_BAD (R147). -/
def zoneOf (s : State) (p : PointId) : Option Nat :=
  match s.pointCfg p with
  | some c => some c.zone
  | none => if s.loader.imageOk then none else some 0

/-- Uptime in seconds, saturating (R170). -/
def uptime (s : State) : Nat := min max32 (s.loader.clockMs / 1000)

end State

end Sys2Proof.Machine
end

