-- ==== Sys2Proof/Machine/Clock.lean ====
section
/-! DEFINITION. The passing of 1 ms (log 2): the uptime clock, the time left of every running timer, and the ages. An expiry is a command of its own (log 3). -/
namespace Sys2Proof.Machine

/-- A running timer after 1 ms; at 0 it waits for its expiry. -/
def tickTimer (t : Timer) : Timer := t.map (· - 1)

/-- An age in ms after 1 ms, saturating at 65,535 s. -/
def tickAge (n : Nat) : Nat := satAdd 65535000 n 1

def Channel.tick (c : Channel) : Channel :=
  { c with rateTimer := tickTimer c.rateTimer, sampleTimer := tickTimer c.sampleTimer }

def Point.tick (x : Point) : Point :=
  { x with
    guard := tickTimer x.guard
    prime := tickTimer x.prime
    noLift := tickTimer x.noLift
    queue := tickTimer x.queue
    hold := tickTimer x.hold
    stall := tickTimer x.stall
    linger := tickTimer x.linger
    progress := tickTimer x.progress }

def PeerEntry.tick (e : PeerEntry) : PeerEntry := { e with ageMs := tickAge e.ageMs }

def TankAllot.tick (t : TankAllot) : TankAllot := { t with peers := t.peers.map PeerEntry.tick, timer := tickTimer t.timer }

def BookEntry.tick (e : BookEntry) : BookEntry := { e with staleTimer := tickTimer e.staleTimer }

def HomeTank.tick (h : HomeTank) : HomeTank :=
  { h with
    gauge := { h.gauge with timer := tickTimer h.gauge.timer }
    settle := tickTimer h.settle
    recon := { h.recon with length := tickTimer h.recon.length } }

def Seek.tick (k : Seek) : Seek := { k with left := k.left - 1 }

/-- The SPILL age counts from the last SPILL taken (R142). -/
def ZoneRec.tick (r : ZoneRec) : ZoneRec :=
  { r with rpt := tickTimer r.rpt, ageMs := if r.lastSpill.isSome then tickAge r.ageMs else r.ageMs }

def PresenceEntry.tick (e : PresenceEntry) : PresenceEntry := { e with ageMs := tickAge e.ageMs }

def Loader.tick (l : Loader) : Loader := { l with listen := tickTimer l.listen, clockMs := l.clockMs + 1 }

def PerPoint.each {α : Type} (f : α → α) (v : PerPoint α) : PerPoint α :=
  ⟨f v.p1, f v.p2, f v.p3, f v.p4, f v.p5, f v.p6⟩

/-- 1 ms passes. While the reset line is held nothing counts (R177). -/
def State.tick (s : State) : State :=
  match s.loader.phase with
  | .resetHeld => s
  | _ =>
    { s with
      loader := s.loader.tick
      chans := s.chans.each Channel.tick
      points := s.points.each Point.tick
      allot := s.allot.map TankAllot.tick
      book := s.book.map BookEntry.tick
      homes := s.homes.map HomeTank.tick
      accounts := { s.accounts with seeks := s.accounts.seeks.map Seek.tick }
      spill := { s.spill with zones := s.spill.zones.map ZoneRec.tick }
      link :=
        { s.link with
          presence := s.link.presence.map PresenceEntry.tick
          presenceTimer := tickTimer s.link.presenceTimer } }

end Sys2Proof.Machine
end

