-- ==== Sys2Proof/Machine/Arith.lean ====
section
/-! DEFINITION. The arithmetic of the chapters, apart from the state: VCF, shares, strap table, verdicts, edit numbers, log ages, eligibility. -/
namespace Sys2Proof.Machine

/-! ### Metering (01) -/

/-- `n / d` rounded to the nearest integer, a half going away from zero (00_scope.md, Numbers). -/
def roundHalfAway (n : Int) (d : Nat) : Int :=
  let q : Int := (2 * n.natAbs + d) / (2 * d)
  if n < 0 then -q else q

/-- "clamped to a..b" (00_scope.md, Numbers). -/
def clampInt (a b x : Int) : Int := if x < a then a else if b < x then b else x

/-- The VCF of a temperature in tenths of a degree and an expansion coefficient (R13). -/
def vcfOf (alpha : Nat) (t : Int) : Nat :=
  (clampInt 95000 105000 (100000 - roundHalfAway ((alpha : Int) * (t - 150)) 100)).toNat

/-- Whether a temperature lies in the range of a probe (R9, R89). -/
def goodTemp (t : Int) : Bool := decide (-400 ≤ t) && decide (t ≤ 700)

/-- The measured rate of a rate update (R16); a value above 65,535 is free (log 11). -/
def rateOf (acc : Nat) : Nat :=
  let r := acc * 12 / 5
  if r ≤ 65535 then r else (Config.freeRate acc).toNat

/-! ### Shares (R68) -/

/-- An admitted point in the pouring of the surplus: its floor and max rates, and its share once capped. -/
structure Vessel where
  floor : Nat
  max : Nat
  share : Option Nat
  deriving DecidableEq, Repr

/-- The uncapped points of a pass. -/
def uncapped (vs : List Vessel) : Nat := (vs.filter fun v => v.share.isNone).length

/-- Whether a pass with this share caps the point (R68, step 3). A point that the share brings to its max rate is capped
with those it would bring above, so that step 6 hands it nothing (log 36). -/
def Vessel.over (share : Nat) (v : Vessel) : Bool := v.share.isNone && decide (v.max ≤ v.floor + share)

/-- R68, steps 5 and 6: the last share, and the remainder 1 L/min each in start order. -/
def handOut (share : Nat) : Nat → List Vessel → List Nat
  | _, [] => []
  | r, v :: vs =>
    match v.share with
    | some x => x :: handOut share r vs
    | none => (if 0 < r then share + 1 else share) :: handOut share (r - 1) vs

/-- R68, steps 1 to 6. Each pass that returns to step 1 caps a point, so as many passes as points, and one, are enough. -/
def pour : Nat → Nat → List Vessel → List Nat
  | 0, _, vs => vs.map fun v => v.share.getD 0
  | n + 1, left, vs =>
    if uncapped vs = 0 then vs.map fun v => v.share.getD 0
    else
      let share := left / uncapped vs
      if vs.any (Vessel.over share) then
        let taken := ((vs.filter (Vessel.over share)).map fun v => v.max - v.floor).sum
        pour n (left - taken)
          (vs.map fun v => if v.over share then { v with share := some (v.max - v.floor) } else v)
      else handOut share (left - uncapped vs * share) vs

/-- The targets of an admitted list before the taper limit, from its (floor, max) rates in start order (R68). -/
def sharedTargets (a : Nat) (rates : List (Nat × Nat)) : List Nat :=
  let floors := (rates.map (·.1)).sum
  let shares := pour (rates.length + 1) (a - floors) (rates.map fun r => ⟨r.1, r.2, none⟩)
  List.zipWith (fun r x => r.1 + x) rates shares

/-! ### Strap table (R88) -/

/-- The volume at a level between the first and the last point. -/
def strapBetween (l : Nat) : List (Nat × Nat) → Nat
  | [] => 0
  | [(_, v)] => v
  | (l1, v1) :: (l2, v2) :: rest =>
    if l ≤ l2 then v1 + (l - l1) * (v2 - v1) / (l2 - l1) else strapBetween l ((l2, v2) :: rest)

/-- The volume of a level in whole litres, and whether the level is above the last point (R88). -/
def strapVolume (pts : List (Nat × Nat)) (l : Nat) : Nat × Bool :=
  match pts.head?, pts.getLast? with
  | some first, some last =>
    if l < first.1 then (first.2, false)
    else if last.1 < l then (last.2, true)
    else (strapBetween l pts, false)
  | _, _ => (0, false)

/-- The accepted standard stock of a gross volume in litres (R89); a value that does not fit is free (log 12). -/
def stockOf (litres vcf : Nat) : Nat :=
  let cl := litres * 100 * vcf / 100000
  if cl ≤ max32 then cl else (Config.freeStock cl).toNat

/-! ### Reconciliation (R104) -/

/-- The tolerance T. -/
def tolerance (c : TankCfg) (m : Nat) : Nat := max c.tolMin (m * c.tolPpt / 1000)

/-- The verdict of a variance and a tolerance. -/
def verdictOf (v : Int) (t : Nat) : Verdict :=
  if (t : Int) < v then .bad else if v < -(t : Int) then .gain else .ok

/-! ### Accounts (06) -/

/-- Whether edit `a` is newer than edit `b` (R115). -/
def newer (a b : Word16) : Bool := decide (1 ≤ (a - b).toNat) && decide ((a - b).toNat ≤ 32767)

/-- Whether an incoming record takes the place of a held or candidate record (R120, R124): its edit is newer, or
equal with a higher origin station. -/
def supersedes (incoming held : AccountRec) : Bool :=
  newer incoming.edit held.edit || (incoming.edit == held.edit && decide (held.origin < incoming.origin))

/-- The burn average after folding a sample in (R129). -/
def foldBurn (avg sample : Nat) : Nat := ((avg : Int) + ((sample : Int) - avg).tdiv 4).toNat

/-! ### Delivery Log (R155) -/

/-- The log number after `n`, skipping 0. -/
def nextLogNumber (n : Nat) : Nat := if n = max32 then 1 else n + 1

/-- The age of log number `n` when `next` is the next log number. -/
def logAge (next n : Nat) : Nat := (next + max32 - n) % max32

/-- Where a log number stands when `h` records are held (R155). -/
inductive LogPlace where
  | held | older | newer
  deriving DecidableEq, Repr

def logPlace (next h n : Nat) : LogPlace :=
  let age := logAge next n
  if age = 0 ∨ 2147483648 ≤ age then .newer else if age ≤ h then .held else .older

/-! ### Delivery runs (02) -/

/-- The run number after `n`, going from 65535 to 1 (R29). -/
def nextRunNumber (n : Nat) : Nat := if n = 65535 then 1 else n + 1

/-- Whether a tag matches an eligibility filter (R26). -/
def Filter.matches (f : Filter) (t : Tag) : Bool :=
  Nat.land t.cls f.clsMask == Nat.land f.clsPattern f.clsMask &&
    Nat.land t.fleet f.fleetMask == Nat.land f.fleetPattern f.fleetMask

/-- The combining logic of two filters (R26). -/
def Combine.apply (l : Combine) (a b : Bool) : Bool :=
  match l with
  | .and => a && b
  | .or => a || b
  | .nand => !(a && b)
  | .nor => !(a || b)

/-- Whether a tag is eligible at a point (R26). -/
def eligible (c : PointCfg) (t : Tag) : Bool :=
  t.unit != 0 &&
    match c.filter1.enabled, c.filter2.enabled with
    | false, false => true
    | true, false => c.filter1.matches t
    | false, true => c.filter2.matches t
    | true, true => c.logic.apply (c.filter1.matches t) (c.filter2.matches t)

/-- The reserve floor of a priority, in whole litres (R28). -/
def TankCfg.floorFor (c : TankCfg) (priority : Nat) : Nat :=
  match priority with
  | 0 => c.floor0
  | 1 => c.floor1
  | 2 => c.floor2
  | _ => c.floor3

/-! ### Pulse decoding (R1) -/

/-- What a pulse is classed as. -/
inductive PulseClass where
  | waiting | unmatched | forward | reverse
  deriving DecidableEq, Repr

/-- The class of a pulse and the pairing state after it (R1, table). -/
def decodePulse (st : Pairing) (input : MeterInput) : PulseClass × Pairing :=
  match st, input with
  | .none, .a => (.waiting, .aWaiting)
  | .none, .b => (.waiting, .bWaiting)
  | .aWaiting, .a => (.unmatched, .aWaiting)
  | .aWaiting, .b => (.forward, .none)
  | .bWaiting, .a => (.reverse, .none)
  | .bWaiting, .b => (.unmatched, .bWaiting)

end Sys2Proof.Machine
end

