-- ==== Sys2Proof/Machine/Codes.lean ====
section
/-! DEFINITION. Fields as bytes and the codes of the enumerations (R183), and the two CRCs (R184, R186). -/
namespace Sys2Proof

/-! ### Codes of the enumerations (R183, second table) -/

def PointState.code : PointState → Nat
  | .idle => 0 | .seeking => 1 | .priming => 2 | .ready => 3 | .queued => 4
  | .flowing => 5 | .taper => 6 | .held => 7 | .linger => 8 | .locked => 9

def LockCause.code : LockCause → Nat
  | .none => 0 | .zone => 1 | .fault => 2 | .image => 3 | .straps => 4

def EndReason.code : EndReason → Nat
  | .preset => 1 | .hangup => 2 | .noLift => 3 | .noCapacity => 4 | .holdExpired => 5 | .cancel => 6 | .stall => 7
  | .reserve => 8 | .quarantine => 9 | .spill => 10 | .meter => 11 | .hose => 12 | .restart => 13

def DenyReason.code : DenyReason → Nat
  | .starting => 1 | .noPoint => 2 | .locked => 3 | .fault => 4 | .busy => 5 | .product => 6 | .badPreset => 7
  | .quarantine => 8 | .ineligible => 9 | .reserve => 10 | .allowance => 11 | .cancelled => 12

def Limiter.code : Limiter → Nat
  | .requested => 0 | .pointMax => 1 | .allowance => 2 | .reserve => 3

def HoursVerdict.code : HoursVerdict → Nat
  | .absent => 0 | .first => 1 | .backwards => 2 | .same => 3 | .longGap => 4 | .accepted => 5 | .notApplied => 6

def Verdict.code : Verdict → Nat
  | .none => 0 | .ok => 1 | .gain => 2 | .bad => 3

def BookCond.code : BookCond → Nat
  | .unknown => 0 | .current => 1 | .stale => 2

def PeerCond.code : PeerCond → Nat
  | .live => 0 | .expired => 1

def WindowState.code : WindowState → Nat
  | .noWindow => 0 | .running => 1 | .due => 2

def ZoneState.code : ZoneState → Nat
  | .clear => 0 | .tripped => 1 | .echoed => 2

def SourceKind.code : SourceKind → Nat
  | .sump => 0 | .film => 1 | .pan => 2 | .estop => 3 | .water => 4 | .hose => 5 | .loss => 6

def Role.code : Role → Nat
  | .unknown => 0 | .lane => 1 | .terminal => 2 | .gateway => 3

namespace Machine

/-! ### Bytes -/

/-- The low `w` bytes of a number, most significant first. -/
def beBytes : Nat → Nat → List Byte
  | 0, _ => []
  | w + 1, n => BitVec.ofNat 8 (n / 256 ^ w) :: beBytes w n

/-- The number of a byte string, most significant byte first. -/
def beNat (l : List Byte) : Nat := l.foldl (fun n b => n * 256 + b.toNat) 0

/-- An unsigned field of `w` bytes (R183); a value that does not fit is free (log 13). -/
def field (w n : Nat) : List Byte := beBytes w (if n < 256 ^ w then n else Config.freeField w n)

/-- A two's complement field of `w` bytes (R183); a value that does not fit is free (log 13). -/
def signedField (w : Nat) (v : Int) : List Byte :=
  if -(256 ^ w : Nat) ≤ 2 * v ∧ 2 * v < (256 ^ w : Nat) then beBytes w (v % (256 ^ w : Nat)).toNat
  else beBytes w (Config.freeSigned v).toNat

/-- The value of a two's complement field of `w` bytes. -/
def signedOf (w n : Nat) : Int := if 2 * n < 256 ^ w then n else (n : Int) - (256 ^ w : Nat)

/-- A two-valued item (R183). -/
def flagByte (b : Bool) : Byte := if b then 1 else 0

/-- A flags byte, from bit 0 upward (R183). -/
def flagsByte (l : List Bool) : Byte :=
  BitVec.ofNat 8 (l.foldr (fun b n => 2 * n + b.toNat) 0)

/-- An absent item sent with every byte 0xFF (R183). -/
def absentBytes (w : Nat) : List Byte := List.replicate w 0xFF#8

/-- A machine tag: class in the top 6 bits, fleet in the next 4, unit in the low 14 (R183). -/
def tagNat (t : Tag) : Nat := t.cls * 262144 + t.fleet * 16384 + t.unit

def tagBytes (t : Tag) : List Byte := field 3 (tagNat t)

def tagOf (n : Nat) : Tag := ⟨n / 262144 % 64, n / 16384 % 16, n % 16384⟩

/-- An absent tag is sent as 0 (R183). -/
def optTagBytes (t : Option Tag) : List Byte :=
  match t with
  | some t => tagBytes t
  | none => field 3 0

/-- An hour reading: absent is 0xFFFFFFFF (R183). -/
def hoursBytes (h : Option Nat) : List Byte :=
  match h with
  | some n => field 4 n
  | none => absentBytes 4

/-- A part byte: the number in the low five bits, the last mark in bit 7 (R184). -/
def partByte (part : Nat) (last : Bool) : Byte :=
  BitVec.ofNat 8 (part % 32 + if last then 128 else 0)

/-! ### Reading codes -/

def pointStateOf : Nat → Option PointState
  | 0 => some .idle | 1 => some .seeking | 2 => some .priming | 3 => some .ready | 4 => some .queued
  | 5 => some .flowing | 6 => some .taper | 7 => some .held | 8 => some .linger | 9 => some .locked | _ => none

def lockCauseOf : Nat → Option LockCause
  | 0 => some .none | 1 => some .zone | 2 => some .fault | 3 => some .image | 4 => some .straps | _ => none

def verdictOfCode : Nat → Option Verdict
  | 0 => some .none | 1 => some .ok | 2 => some .gain | 3 => some .bad | _ => none

def zoneStateOf : Nat → Option ZoneState
  | 0 => some .clear | 1 => some .tripped | 2 => some .echoed | _ => none

def sourceKindOf : Nat → Option SourceKind
  | 0 => some .sump | 1 => some .film | 2 => some .pan | 3 => some .estop | 4 => some .water | 5 => some .hose
  | 6 => some .loss | _ => none

def roleOf : Nat → Option Role
  | 0 => some .unknown | 1 => some .lane | 2 => some .terminal | 3 => some .gateway | _ => none

/-- A two-valued item as read; other codes are outside its list (log 28). -/
def boolOf : Nat → Option Bool
  | 0 => some false | 1 => some true | _ => none

def groupOf : Nat → Option Group
  | 0 => some .fuel | 1 => some .fluid | _ => none

def tempModeOf : Nat → Option TempMode
  | 0 => some .auto | 1 => some .forced | _ => none

def polarityOf : Nat → Option Polarity
  | 0 => some .wetHigh | 1 => some .wetLow | _ => none

def combineOf : Nat → Option Combine
  | 0 => some .and | 1 => some .or | 2 => some .nand | 3 => some .nor | _ => none

/-! ### CRCs -/

/-- One bit of the CRC-16: polynomial x^16 + x^12 + x^5 + 1, most significant bit first (R184). -/
def crc16Bit (c : BitVec 16) : BitVec 16 :=
  if c.getLsbD 15 then (c <<< 1) ^^^ 0x1021#16 else c <<< 1

def crc16Byte (c : BitVec 16) (b : Byte) : BitVec 16 :=
  crc16Bit (crc16Bit (crc16Bit (crc16Bit (crc16Bit (crc16Bit (crc16Bit (crc16Bit
    (c ^^^ (b.setWidth 16 <<< 8)))))))))

/-- The CRC-16 of a frame: starts from 0xFFFF, no final inversion (R184). -/
def crc16 (l : List Byte) : BitVec 16 := l.foldl crc16Byte 0xFFFF#16

/-- One bit of the CRC-32: polynomial 0x04C11DB7 taken least significant bit first (R186). -/
def crc32Bit (c : Word32) : Word32 :=
  if c.getLsbD 0 then (c >>> 1) ^^^ 0xEDB88320#32 else c >>> 1

def crc32Byte (c : Word32) (b : Byte) : Word32 :=
  crc32Bit (crc32Bit (crc32Bit (crc32Bit (crc32Bit (crc32Bit (crc32Bit (crc32Bit
    (c ^^^ b.setWidth 32))))))))

/-- The CRC-32 of the image and of the bay section: starts from 0xFFFFFFFF, the final value inverted (R186). -/
def crc32 (l : List Byte) : Word32 := ~~~ (l.foldl crc32Byte 0xFFFFFFFF#32)

end Machine

end Sys2Proof
end

