-- ==== Sys2Proof/Machine/Operands.lean ====
section
/-! DEFINITION. Commands that are received frames: how a frame heard is judged (R166, R167, R169), and how its bytes give a command's operands (R183 to R185). -/
namespace Sys2Proof.Machine

/-! ### The presence table (9.3) -/

namespace State

/-- The presence entry of a station. -/
def peer (s : State) (station : Nat) : Option PresenceEntry := s.link.presence.find? (·.station == station)

def setPresence (s : State) (l : List PresenceEntry) : State := s.setLink { s.link with presence := l }

/-- A frame refreshes its source's entry, creating it if there is none (R167). -/
def refresh (s : State) (station : Nat) : State :=
  match s.peer station with
  | some _ =>
    s.setPresence (modWhere (·.station == station) (fun e => { e with ageMs := 0, absent := false }) s.link.presence)
  | none =>
    s.setPresence (insertRow (·.station)
      { station := station, fingerprint := none, uptime := none, ageMs := 0, absent := false, disagreeing := false }
      s.link.presence)

/-- Whether DRAW, STOCK, SEEK and ACCOUNT are taken from a station (R169): present, fingerprint known, agreeing. -/
def trusts (s : State) (station : Nat) : Bool :=
  match s.peer station with
  | some e => !e.absent && e.fingerprint.isSome && !e.disagreeing
  | none => false

end State

/-- Whether a frame's source is that of another station: R166, rows 2 and 3 (row 4). -/
def State.hears (s : State) (src : Nat) : Bool :=
  s.up && decide (1 ≤ src) && decide (src ≤ 31) && decide (src ≠ s.own)

/-- Whether a target names the station or all stations: R166, row 5. -/
def State.targeted (s : State) (tgt : Nat) : Bool := decide (tgt = 0) || decide (tgt = s.own)

/-- A frame heard whole, with its CRC good: rows 2 to 5 of R166, the refresh of R167 first, then `take` by the block
that owns the kind (row 8). -/
def receive (src tgt : Nat) (take : State → State) (s : State) : State :=
  if s.hears src then
    let s' := s.refresh src
    if s'.targeted tgt then take s' else s'
  else s

/-- A kind whose owner ignores target 0 (R23, R41, R52, R95, R158, R162, R175, R176). -/
def receiveNamed (src tgt : Nat) (take : State → State) (s : State) : State :=
  receive src tgt (fun s => if tgt = 0 then s else take s) s

/-! ### Bytes of a frame heard (R184) -/

/-- The parts of a frame whose length and CRC are good. -/
structure Heard where
  kind : Nat
  src : Nat
  tgt : Nat
  body : List Byte
  deriving DecidableEq, Repr

/-- R166, row 1: the body length byte at most 60 and within the bytes heard, the CRC-16 good. Bytes after the CRC fail
it as well (log 18). -/
def parseFrame (m : List Byte) : Option Heard :=
  let len := readAt1 m 4
  if 7 ≤ m.length ∧ len ≤ 60 ∧ m.length = len + 7
      ∧ (crc16 (m.take (len + 5))).toNat = beNat (m.drop (len + 5)) then
    some ⟨readAt1 m 0, readAt1 m 1, readAt1 m 2, (m.drop 5).take len⟩
  else none
where
  readAt1 (m : List Byte) (o : Nat) : Nat := beNat ((m.drop o).take 1)

/-- An unsigned field of a body. -/
def bodyField (m : List Byte) (o w : Nat) : Nat := beNat ((m.drop o).take w)

/-- Bit `n` of a flags byte. -/
def bodyFlag (m : List Byte) (o n : Nat) : Bool := (bodyField m o 1).testBit n

/-- A run number of 0 is an absent one (R183). -/
def runField (n : Nat) : Option Nat := if n = 0 then none else some n

/-- An hour reading of 0xFFFFFFFF is absent (R183). -/
def hoursField (n : Nat) : Option Nat := if n = max32 then none else some n

/-- The account record of an ACCOUNT body (R185). -/
def accountField (m : List Byte) : AccountRec where
  tag := tagOf (bodyField m 0 3)
  edit := BitVec.ofNat 16 (bodyField m 3 2)
  origin := bodyField m 5 1
  hoursLast := hoursField (bodyField m 6 4)
  unbooked := bodyField m 10 4
  burnAvg := if bodyFlag m 19 1 then some (bodyField m 14 4) else none
  burnCount := bodyField m 18 1
  anomaly := bodyFlag m 19 0
  shift := bodyField m 20 2
  takenFuel := bodyField m 22 4
  takenFluid := bodyField m 26 4

def stockFlagsField (m : List Byte) (o : Nat) : StockFlags where
  quarantined := bodyFlag m o 0
  receiving := bodyFlag m o 1
  gaugeFault := bodyFlag m o 2
  gaugeJump := bodyFlag m o 3
  overStrap := bodyFlag m o 4
  loss := bodyFlag m o 5

/-- The point bytes of a PRESENCE: 0xFF for a point not configured. -/
def pointField (n : Nat) : Option (Option (PointState × LockCause)) :=
  if n = 255 then some none
  else
    match pointStateOf (n % 16), lockCauseOf (n / 16) with
    | some st, some c => some (some (st, c))
    | _, _ => none

/-- Every item of a list, or none if one is outside its list. -/
def allSome {α : Type} : List (Option α) → Option (List α)
  | [] => some []
  | none :: _ => none
  | some a :: rest => (allSome rest).map (a :: ·)

def presenceField (m : List Byte) : Option PresenceBody :=
  let zones := (List.range 8).map fun z => zoneStateOf (bodyField m 12 2 / 4 ^ z % 4)
  let points := (List.range 6).map fun i => pointField (bodyField m (14 + i) 1)
  match roleOf (bodyField m 0 1), allSome zones, allSome points with
  | some r, some z, some p =>
    some
      { role := r
        fingerprint := BitVec.ofNat 32 (bodyField m 1 4)
        uptime := bodyField m 5 4
        imageBad := bodyFlag m 9 0
        listen := bodyFlag m 9 1
        logPressing := bodyFlag m 9 2
        disagree := bodyFlag m 9 3
        uncollected := bodyField m 10 2
        zones := z
        points := p }
  | _, _, _ => none

/-- The ASK of a body, by its subject code and length (R175, R184). -/
def askField (src tgt : Nat) (m : List Byte) : Option Instr :=
  match bodyField m 0 1, m.length with
  | 1, 2 => some (.askPoint src tgt (bodyField m 1 1))
  | 2, 2 => some (.askTank src tgt (bodyField m 1 1))
  | 3, 4 => some (.askAccount src tgt (tagOf (bodyField m 1 3)))
  | 4, 2 => some (.askZone src tgt (bodyField m 1 1))
  | 5, 2 => some (.askRecon src tgt (bodyField m 1 1))
  | 6, 1 => some (.askPeers src tgt)
  | _, _ => none

/-- The command of a frame that reaches row 8 of R166: its kind is one the LC-24 takes, its body has a length its kind
allows, and no enumerated field holds a code outside its list (R183, R184). -/
def heardCommand (h : Heard) : Option Instr :=
  let m := h.body
  let src := h.src
  let tgt := h.tgt
  match h.kind, m.length with
  | 1, 15 =>
    some (.openRequest src tgt (bodyField m 0 1) (tagOf (bodyField m 1 3)) (bodyField m 4 1) (bodyField m 5 4)
      (hoursField (bodyField m 9 4)) (bodyField m 13 2))
  | 6, 3 => some (.hold src tgt (bodyField m 0 1) (runField (bodyField m 1 2)))
  | 7, 3 => some (.resume src tgt (bodyField m 0 1) (runField (bodyField m 1 2)))
  | 8, 3 => some (.cancel src tgt (bodyField m 0 1) (runField (bodyField m 1 2)))
  | 9, 8 =>
    some (.draw src tgt (bodyField m 0 1) (bodyField m 1 2) (bodyField m 3 1) (BitVec.ofNat 32 (bodyField m 4 4)))
  | 10, 12 =>
    (verdictOfCode (bodyField m 7 1)).map fun v =>
      .stock src tgt (bodyField m 0 1) (bodyField m 1 4) (BitVec.ofNat 8 (bodyField m 5 1)) (stockFlagsField m 6) v
        (signedOf 4 (bodyField m 8 4))
  | 11, 3 => some (.seek src tgt (tagOf (bodyField m 0 3)))
  | 12, 30 => some (.account src tgt (accountField m))
  | 13, 3 => (sourceKindOf (bodyField m 1 1)).map fun k => .spill src tgt (bodyField m 0 1) k (bodyField m 2 1)
  | 14, 1 => some (.allclear src tgt (bodyField m 0 1))
  | 15, 2 =>
    match bodyField m 0 1 with
    | 1 => some (.unlockPoint src tgt (bodyField m 1 1))
    | 2 => some (.unlockTank src tgt (bodyField m 1 1))
    | _ => none
  | 16, _ => askField src tgt m
  | 18, 5 => some (.collect src tgt (bodyField m 0 4) (bodyField m 4 1))
  | 20, 4 => some (.confirm src tgt (bodyField m 0 4))
  | 21, 20 => (presenceField m).map fun b => .presence src tgt b
  | 22, 4 => some (.restart src tgt (BitVec.ofNat 32 (bodyField m 0 4)))
  | _, _ => none

end Sys2Proof.Machine
end

