-- ==== Sys2Proof/Machine/Flags.lean ====
section
/-! DEFINITION. What is computed from the state: whether zones are CLEAR, lock causes, summary bits, the beacon, LOG_PRESSING, CONFIG_DISAGREE, book stock and undelivered parts. -/
namespace Sys2Proof

/-- The run states (2.2). -/
def PointState.inRun : PointState → Bool
  | .priming => true | .ready => true | .queued => true | .flowing => true | .taper => true | .held => true
  | .idle => false | .seeking => false | .linger => false | .locked => false

/-- FLOWING or TAPER: the states of an open valve (2.2). -/
def PointState.flows : PointState → Bool
  | .flowing => true | .taper => true
  | .idle => false | .seeking => false | .priming => false | .ready => false | .queued => false | .held => false
  | .linger => false | .locked => false

/-- FLOWING, TAPER or HELD: the states whose entering or leaving recomputes a tank (R67). -/
def PointState.allots : PointState → Bool
  | .flowing => true | .taper => true | .held => true
  | .idle => false | .seeking => false | .priming => false | .ready => false | .queued => false
  | .linger => false | .locked => false

/-- SEEKING or in a run state (2.2). -/
def PointState.busy (st : PointState) : Bool := st == .seeking || st.inRun

namespace Machine

namespace State

/-! ### Zones (R142) -/

/-- Whether a zone is CLEAR; a zone the station takes no part in has no record and shuts nothing. -/
def zoneClear (s : State) (z : Nat) : Bool :=
  match s.zoneRec z with
  | some r => r.st == .clear
  | none => true

/-- Whether a point's zone and zone 0 are both CLEAR (R47). -/
def zonesClear (s : State) (p : PointId) : Bool :=
  s.zoneClear 0 &&
    match s.zoneOf p with
    | some z => s.zoneClear z
    | none => true

/-- Whether the Spill Monitor tells a point of a change of zone `z` (R147). -/
def toldOf (s : State) (z : Nat) (p : PointId) : Bool :=
  match s.zoneOf p with
  | some zp => zp == z || z == 0
  | none => false

/-- The beacon zone mask; zone 0 alone with IMAGE_BAD (R151). -/
def beaconMask (s : State) : Byte :=
  match s.cfg with
  | some c => c.beaconMask
  | none => 1

/-- Whether the beacon line is active (R146). -/
def beaconOn (s : State) : Bool :=
  s.spill.zones.any fun r => s.beaconMask.getLsbD r.zone && r.st != .clear

/-- Set the beacon line in the event of a zone change (R146). -/
def setBeacon (s : State) : State := s.setSpill { s.spill with beacon := s.beaconOn }

/-- The settings of a spill line that is filtered (R135); with IMAGE_BAD those of R151. -/
def lineCfg (s : State) (n : Nat) : Option LineCfg :=
  if s.loader.imageOk then s.cfg.bind fun c => (nth1 c.lines n).bind id
  else if 1 ≤ n ∧ n ≤ 12 then some ⟨.sump, 0, .wetHigh, 3, 3⟩ else none

/-- The settings of the water-bottom line of a position that holds a home tank (R135). -/
def waterCfg (s : State) (pos : Nat) : Option LineCfg :=
  match s.homeAt pos with
  | some _ => s.cfg.bind fun c => nth1 c.waters pos
  | none => none

/-- The spill-line sources of a zone, in line order. -/
def spillSources (s : State) (z : Nat) : List SourceTell :=
  (List.range 12).filterMap fun i =>
    match s.lineCfg (i + 1), s.spill.lines[i]? with
    | some c, some x => if c.zone = z then some ⟨c.kind, i + 1, x.wet, x.sticky, some x.count⟩ else none
    | _, _ => none

/-- The water-bottom sources of a zone, in line order. -/
def waterSources (s : State) (z : Nat) : List SourceTell :=
  (List.range 4).filterMap fun i =>
    match s.waterCfg (i + 1), s.homes[i]? with
    | some c, some h => if c.zone = z then some ⟨.water, i + 1, h.water.wet, h.water.sticky, some h.water.count⟩ else none
    | _, _ => none

/-- The HOSE sources of a zone, in point order: one per configured point (7.1). -/
def hoseSources (s : State) (z : Nat) : List SourceTell :=
  allPoints.filterMap fun p =>
    match s.pointCfg p with
    | some c => if c.zone = z then some ⟨.hose, pointNum p, (s.getHose p).wet, (s.getHose p).sticky, none⟩ else none
    | none => none

/-- The LOSS sources of a zone, by home-tank position. -/
def lossSources (s : State) (z : Nat) : List SourceTell :=
  s.homes.filterMap fun h =>
    match s.tankCfg h.tank with
    | some c => if c.zone = z then some ⟨.loss, h.tank, h.lossWet, h.lossSticky, none⟩ else none
    | none => none

/-- The local sources of a zone in the order of R145 and R148. -/
def localSources (s : State) (z : Nat) : List SourceTell :=
  s.spillSources z ++ s.waterSources z ++ s.hoseSources z ++ s.lossSources z

/-! ### Points (R47, R48) -/

/-- The lock cause of a LOCKED point as its zones, its permanent lock and its faults stand (R47, R48, R52). -/
def lockCauseOf (s : State) (p : PointId) : LockCause :=
  let x := s.getPoint p
  if !s.zonesClear p then .zone
  else if x.permanent != .none then x.permanent
  else if x.faultMeter || x.faultHose then .fault
  else .none

end State

/-- The FAULTED summary of a CLOSE (R55). -/
def faultedSummary (dropout tempHeld : Bool) (r : EndReason) : Bool :=
  dropout || tempHeld || r == .stall || r == .meter || r == .hose || r == .spill || r == .quarantine

/-- The book stock of an entry (R78). -/
def BookEntry.stock (e : BookEntry) : Nat := e.stockAtMark - e.drawn

namespace State

/-! ### Volumes (R27, R78) -/

/-- The undelivered part of a live run (R27). -/
def undelivered (s : State) (p : PointId) : Nat :=
  match (s.getPoint p).run with
  | some r => r.granted - (s.getChan p).runStd
  | none => 0

/-- The undelivered parts of the station's live runs on a tank (R28). -/
def undeliveredOn (s : State) (tank : Nat) : Nat :=
  (allPoints.map fun p =>
    match (s.getPoint p).run with
    | some r => if r.tank = tank then s.undelivered p else 0
    | none => 0).sum

/-- The undelivered parts of the station's live runs for a tag and a group (R27). -/
def undeliveredFor (s : State) (tag : Tag) (g : Group) : Nat :=
  (allPoints.map fun p =>
    match (s.getPoint p).run with
    | some r => if r.tag = tag ∧ r.group = g then s.undelivered p else 0
    | none => 0).sum

/-- The undelivered parts of the runs on a tank that were tested and have ended in the event in hand. -/
def endedOn (s : State) (tank : Nat) : Nat := ((s.marks.ended.filter fun x => x.1 == tank).map (·.2)).sum

/-- Whether the reserve test of a run in FLOWING or TAPER fails (R40). The tested runs that have ended in the event in hand
still count with their undelivered parts: each is tested on the sums as they stand before any of them ends (log 35). -/
def reserveFails (s : State) (p : PointId) : Bool :=
  match (s.getPoint p).run with
  | none => false
  | some r =>
    match s.entry r.tank, s.tankCfg r.tank with
    | some e, some t =>
      e.cond == .unknown || (e.cond == .stale && decide (r.priority ≤ 1))
        || decide (e.stock < t.floorFor r.priority * 100 + s.undeliveredOn r.tank + s.endedOn r.tank)
    | _, _ => true

/-- The station's points in FLOWING or TAPER on a tank whose reserve test fails (R40). -/
def reserveFailing (s : State) (tank : Nat) : List PointId :=
  allPoints.filter fun p =>
    (s.getPoint p).st.flows && ((s.getPoint p).run.map (·.tank)) == some tank && s.reserveFails p

/-! ### Link and log flags -/

/-- CONFIG_DISAGREE (R169). -/
def configDisagree (s : State) : Bool := s.link.presence.any fun e => !e.absent && e.disagreeing

/-- The Delivery Log's threshold; 256 with IMAGE_BAD (R163). -/
def threshold (s : State) : Nat :=
  match s.cfg with
  | some c => c.threshold
  | none => 256

/-- Set LOG_PRESSING by the uncollected count (R157). -/
def setPressing (s : State) : State :=
  s.setLog { s.log with pressing := decide (s.threshold ≤ s.log.uncollected) }

/-- The newest held log number, 0 when the log is empty (R160). -/
def newestLog (s : State) : Nat :=
  match s.log.records.getLast? with
  | some r => r.entry.number
  | none => 0

/-- The station's own PRESENCE (R170). -/
def presenceBody (s : State) : PresenceBody where
  role := .lane
  fingerprint := s.loader.fingerprint
  uptime := s.uptime
  imageBad := !s.loader.imageOk
  listen := s.loader.phase == .listening
  logPressing := s.log.pressing
  disagree := s.configDisagree
  uncollected := s.log.uncollected
  zones := (List.range 8).map fun z =>
    match s.zoneRec z with
    | some r => r.st
    | none => .clear
  points := allPoints.map fun p =>
    if (s.zoneOf p).isSome then some ((s.getPoint p).st, (s.getPoint p).lockCause) else none

end State

end Machine

end Sys2Proof
end

