-- ==== Sys2Proof/Machine/Frames.lean ====
section
/-! DEFINITION. The bytes of the frames the station sends (R184, R185), their kinds, classes and replacement subjects (9.1, 9.5). -/
namespace Sys2Proof.Machine

/-! ### Carried records (R185) -/

def accountBytes (r : AccountRec) : List Byte :=
  tagBytes r.tag ++ field 2 r.edit.toNat ++ field 1 r.origin ++ hoursBytes r.hoursLast ++ field 4 r.unbooked
    ++ field 4 (r.burnAvg.getD 0) ++ field 1 r.burnCount ++ [flagsByte [r.anomaly, r.burnAvg.isSome]]
    ++ field 2 r.shift ++ field 4 r.takenFuel ++ field 4 r.takenFluid

def deliveryBytes (r : DeliveryRec) : List Byte :=
  field 4 r.number ++ field 2 r.run ++ field 1 (pointNum r.point) ++ field 1 r.tank ++ field 1 r.product
    ++ tagBytes r.tag ++ field 1 r.terminal ++ field 2 r.shift ++ hoursBytes r.hours ++ field 1 r.verdict.code
    ++ field 4 r.requested ++ field 4 r.granted ++ field 1 r.limiter.code ++ field 4 r.gross ++ field 4 r.standard
    ++ field 3 r.vcf ++ field 4 r.duration ++ field 1 r.reason.code
    ++ [flagsByte [r.clamped, r.dropout, r.tempHeld, r.anomaly, r.burnSample.isSome]] ++ field 4 (r.burnSample.getD 0)

def stockFlagsByte (f : StockFlags) : Byte :=
  flagsByte [f.quarantined, f.receiving, f.gaugeFault, f.gaugeJump, f.overStrap, f.loss]

/-! ### TELL (R183, R184, log 23) -/

def Subject.bytes : Subject → List Byte
  | .point n => field 1 1 ++ field 1 n
  | .tank n => field 1 2 ++ field 1 n
  | .account t => field 1 3 ++ tagBytes t
  | .zone z => field 1 4 ++ field 1 z
  | .recon n => field 1 5 ++ field 1 n
  | .peers => field 1 6

/-- A list: a one-byte count followed by its entries (R184). -/
def listBytes {α : Type} (f : α → List Byte) (l : List α) : List Byte := field 1 l.length ++ l.flatMap f

def tellRunBytes : Option TellRun → List Byte
  | some r => field 2 r.number ++ tagBytes r.tag ++ field 4 r.granted ++ field 1 r.limiter.code ++ field 1 r.terminal
  | none => field 11 0

def PointTell.bytes (t : PointTell) : List Byte :=
  field 1 t.state.code ++ field 1 t.lockCause.code ++ [flagsByte [t.faultMeter, t.faultHose], flagByte t.pump, flagByte t.valveOpen]
    ++ field 2 t.commanded ++ [flagByte t.offHook] ++ field 2 t.measured ++ field 3 t.vcf ++ [flagByte t.probeFault]
    ++ field 4 t.creep ++ field 4 t.forward ++ field 4 t.reverse ++ field 4 t.unmatched ++ field 4 t.runGross
    ++ field 4 t.runStandard ++ tellRunBytes t.run ++ optTagBytes t.seekTag

/-- The first TELL of a tank (R97). Its six flags go as one byte, laid out as in a STOCK (log 23). -/
def TankTell.bytes (t : TankTell) : List Byte :=
  field 1 t.tank ++ field 1 t.product ++ field 1 t.home ++ field 1 t.cond.code ++ field 2 t.staleLeft
    ++ field 4 t.stockAtMark ++ [t.mark] ++ field 4 t.drawn ++ field 4 t.bookStock ++ [stockFlagsByte t.flags]
    ++ field 1 t.verdict.code ++ signedField 4 t.variance ++ field 4 t.ownDraw.toNat ++ field 1 t.baselines

def HomeTell.bytes (t : HomeTell) : List Byte :=
  (match t.level with
    | some l => field 2 l
    | none => absentBytes 2)
    ++ field 4 t.volume ++ field 4 t.stock ++ field 1 t.held ++ field 1 t.rejected ++ signedField 2 t.temp
    ++ [flagByte t.tempHeld, flagByte t.fillActive] ++ field 2 t.settleLeft ++ [flagByte t.waterWet, flagByte t.waterSticky]

/-- A source's entry in a ZONE TELL (R148). A HOSE or LOSS source has no run count: its byte is 0xFF (log 23). -/
def sourceBytes (t : SourceTell) : List Byte :=
  field 1 t.kind.code ++ field 1 t.index ++ [flagByte t.wet, flagByte t.sticky]
    ++ (match t.count with
        | some n => field 1 n
        | none => absentBytes 1)

def ZoneTell.bytes (t : ZoneTell) : List Byte :=
  field 1 t.zone ++ field 1 t.state.code
    ++ (match t.trip with
        | some (k, i) => field 1 k.code ++ field 1 i
        | none => absentBytes 2)
    ++ field 2 t.repeatLeft ++ field 1 (t.lastSpill.getD 0) ++ field 2 t.age
    ++ [flagByte t.maskBit, flagByte t.beacon] ++ field 1 t.sources ++ field 1 t.wet

def winResultBytes : Option WinResult → List Byte
  | some r =>
    field 2 r.number.toNat ++ signedField 4 r.g ++ field 4 r.m ++ signedField 4 r.v ++ field 4 r.t ++ field 1 r.verdict.code
  | none => absentBytes 19

def ReconTell.bytes (t : ReconTell) : List Byte :=
  field 1 t.tank ++ field 1 t.window.code ++ field 2 t.number.toNat ++ field 4 t.g0 ++ field 4 t.m ++ field 4 t.since
    ++ field 2 t.lengthLeft ++ field 1 t.bad ++ field 1 t.ok ++ field 1 t.lossOn ++ field 1 t.lossOff
    ++ [flagByte t.lossWet] ++ winResultBytes t.newest ++ field 1 t.results

def PeersTell.bytes (t : PeersTell) : List Byte :=
  field 1 t.tank ++ field 2 t.header ++ field 2 t.liveSum ++ field 2 t.available ++ field 2 t.own
    ++ field 2 t.announced ++ field 2 t.floors
    ++ listBytes (fun e => field 1 (pointNum e.1) ++ field 1 e.2.1.code ++ field 2 e.2.2.1 ++ field 2 e.2.2.2) t.admitted
    ++ listBytes (fun e => field 1 (pointNum e.1) ++ field 2 e.2) t.queue

def peerTellBytes (e : PeerTell) : List Byte :=
  field 1 e.station ++ field 1 e.cond.code ++ field 2 e.demand ++ field 1 e.flowing ++ field 2 e.age

/-- The answer code and the content of a TELL. -/
def Answer.bytes : Answer → List Byte
  | .nothing => field 1 0
  | .refusedWet => field 1 1
  | .point t => field 1 2 ++ t.bytes
  | .tank t => field 1 2 ++ t.bytes
  | .home t => field 1 2 ++ t.bytes
  | .account r pos att runs =>
    field 1 2 ++ accountBytes r ++ field 1 pos ++ field 1 att
      ++ listBytes (fun e => field 1 (pointNum e.1) ++ field 2 e.2) runs
  | .pendingSeek t w left cand =>
    field 1 3 ++ tagBytes t ++ listBytes (fun p => field 1 (pointNum p)) w ++ field 2 left
      ++ (match cand with
          | some (e, o, st) => field 2 e.toNat ++ field 1 o ++ field 1 st
          | none => field 4 0)
  | .zone t => field 1 2 ++ t.bytes
  | .sources l => field 1 2 ++ listBytes sourceBytes l
  | .recon t => field 1 2 ++ t.bytes
  | .ring l =>
    field 1 2 ++ listBytes (fun e => field 2 e.1.toNat ++ field 1 e.2.1.code ++ signedField 4 e.2.2) l
  | .peers t => field 1 2 ++ t.bytes
  | .peerEntries n l => field 1 2 ++ field 1 n ++ listBytes peerTellBytes l

/-! ### PRESENCE (R184) -/

/-- The two zone bytes as one value: zone z in bits 2z and 2z + 1. -/
def zoneBits (l : List ZoneState) : Nat := l.foldr (fun z n => n * 4 + z.code) 0

def pointByte : Option (PointState × LockCause) → List Byte
  | some (st, c) => field 1 (c.code * 16 + st.code)
  | none => absentBytes 1

def presenceBytes (b : PresenceBody) : List Byte :=
  field 1 b.role.code ++ field 4 b.fingerprint.toNat ++ field 4 b.uptime
    ++ [flagsByte [b.imageBad, b.listen, b.logPressing, b.disagree]] ++ field 2 b.uncollected
    ++ field 2 (zoneBits b.zones) ++ b.points.flatMap pointByte

/-! ### Frames (9.1, R184) -/

/-- The code of a body's kind. -/
def Body.kind : Body → Nat
  | .grant .. => 2 | .deny .. => 3 | .progress .. => 4 | .close _ => 5 | .draw .. => 9 | .stock .. => 10
  | .seek _ => 11 | .account _ => 12 | .spill .. => 13 | .tell .. => 17 | .batch .. => 19 | .presence _ => 21

/-- The class of a body's kind (9.1, table). -/
def Body.cls : Body → Nat
  | .spill .. => 0
  | .draw .. => 1 | .stock .. => 1
  | .grant .. => 2 | .deny .. => 2 | .close _ => 2 | .seek _ => 2 | .account _ => 2
  | .progress .. => 3 | .tell .. => 3 | .batch .. => 3 | .presence _ => 3

/-- The subject used for replacement: the zone, tank or point of a SPILL, DRAW, STOCK or PROGRESS, with the kind (9.5). -/
def Body.subject : Body → Option (Nat × Nat)
  | .spill z _ _ => some (13, z)
  | .draw t _ _ _ => some (9, t)
  | .stock t _ _ _ _ _ => some (10, t)
  | .progress p _ _ _ _ _ _ => some (4, p)
  | .grant .. => none | .deny .. => none | .close _ => none | .seek _ => none | .account _ => none
  | .tell .. => none | .batch .. => none | .presence _ => none

/-- The bytes of a body (R184). -/
def Body.bytes : Body → List Byte
  | .grant p t run req gr lim cl =>
    field 1 p ++ tagBytes t ++ field 2 run ++ field 4 req ++ field 4 gr ++ field 1 lim.code ++ [flagsByte [cl]]
  | .deny p t r => field 1 p ++ tagBytes t ++ field 1 r.code
  | .progress p run st g std c pf =>
    field 1 p ++ field 2 run ++ field 1 st.code ++ field 4 g ++ field 4 std ++ field 2 c ++ [flagByte pf]
  | .close b =>
    field 1 b.point ++ tagBytes b.tag ++ field 2 b.run ++ field 4 b.log ++ field 1 b.reason.code ++ field 4 b.granted
      ++ field 4 b.gross ++ field 4 b.standard ++ field 3 b.vcf
      ++ [flagsByte [b.clamped, b.dropout, b.tempHeld, b.anomaly, b.faulted]]
  | .draw t d f c => field 1 t ++ field 2 d ++ field 1 f ++ field 4 c.toNat
  | .stock t v m f ver var =>
    field 1 t ++ field 4 v ++ [m, stockFlagsByte f] ++ field 1 ver.code ++ signedField 4 var
  | .seek t => tagBytes t
  | .account r => accountBytes r
  | .spill z k i => field 1 z ++ field 1 k.code ++ field 1 i
  | .tell sub part last ans => sub.bytes ++ [partByte part last] ++ ans.bytes
  | .batch part last newest unc r =>
    [partByte part last] ++ field 4 newest ++ field 2 unc
      ++ (match r with
          | some r => deliveryBytes r
          | none => [])
  | .presence b => presenceBytes b

/-- A frame's bytes on the line: header, body and CRC-16, high byte first (R184). -/
def frameBytes (source : Nat) (seq : Byte) (f : Frame) : List Byte :=
  let body := f.body.bytes
  let front := field 1 f.body.kind ++ field 1 source ++ field 1 f.target ++ [seq] ++ field 1 body.length ++ body
  front ++ beBytes 2 (crc16 front).toNat

end Sys2Proof.Machine
end

