-- ==== Sys2Proof/Machine/Ops.lean ====
section
/-! DEFINITION. The shared operations: free choices, the transmit queue and the restart list (R171 to R174, R182), the collection's BATCHes (R159), and what every command does around its meaning. -/
namespace Sys2Proof.Machine

/-! ### Free choices (logs 6, 7, 8) -/

/-- A list in the order that the free choices from the `c`-th on give. With fewer than two items there is nothing to
choose. The fuel is the list's length. -/
def freeOrder {α : Type} : Nat → Nat → List α → List α
  | 0, _, l => l
  | _ + 1, _, [] => []
  | _ + 1, _, [a] => [a]
  | n + 1, c, a :: b :: rest =>
    let l := a :: b :: rest
    let i := Config.freeChoice c % l.length
    l.getD i a :: freeOrder n (c + 1) (l.eraseIdx i)

namespace State

/-- Take one two-valued free choice. -/
def choose (s : State) : Bool × State := (Config.freeChoice s.free % 2 == 1, s.setFree (s.free + 1))

/-- Act on each of several items in a free order. -/
def forEach {α : Type} (l : List α) (f : α → State → State) (s : State) : State :=
  (freeOrder l.length s.free l).foldl (fun s a => f a s) (if l.length < 2 then s else s.setFree (s.free + l.length))

/-- Act on each of several items in the order given. -/
def inOrder {α : Type} (l : List α) (f : α → State → State) (s : State) : State := l.foldl (fun s a => f a s) s

end State

/-! ### Placing a frame in the transmit queue (R171) -/

/-- A slot that a frame joins as. -/
def newSlot (f : Frame) (ofCollection : Bool) : Slot where
  frame := f
  attempts := 0
  onLine := false
  pending := none
  seq := none
  withdrawn := false
  ofCollection := ofCollection

def Slot.cls (x : Slot) : Nat := x.frame.body.cls

/-- New content for a slot of the same kind and subject (R171, step 1). -/
def Slot.replace (f : Frame) (x : Slot) : Slot :=
  if x.onLine then { x with attempts := 0, pending := some f } else { x with frame := f, attempts := 0, seq := none }

/-- Whether a slot holds a frame of the same kind and subject as `b` (R171, step 1). -/
def Slot.sameSubject (b : Body) (x : Slot) : Bool := b.subject.isSome && x.frame.body.subject == b.subject

/-- The oldest slot of the highest class number present, leaving out a slot on the line (R171, step 3). -/
def victim (q : List Slot) : Option Slot :=
  let off := q.filter fun x => !x.onLine
  off.find? fun x => off.all fun y => decide (y.cls ≤ x.cls)

/-- The queue without that slot: the first off the line with its class number. -/
def dropVictim (v : Slot) (q : List Slot) : List Slot := q.eraseP fun x => !x.onLine && x.cls == v.cls

/-- R171: the queue after a frame is placed in it, and the slot that leaves in its place (the new one itself when the
frame is dropped). -/
def place (q : List Slot) (f : Frame) (ofCollection : Bool) : List Slot × Option Slot :=
  if q.any (Slot.sameSubject f.body) then
    (q.map fun x => if x.sameSubject f.body then x.replace f else x, none)
  else if q.length < Config.queueSlots then (q ++ [newSlot f ofCollection], none)
  else
    match victim q with
    | some v =>
      if f.body.cls ≤ v.cls then (dropVictim v q ++ [newSlot f ofCollection], some v)
      else (q, some (newSlot f ofCollection))
    | none => (q, some (newSlot f ofCollection))

/-- Whether a slot leaves a full queue for a new frame (R171, step 3); else the new frame is dropped, and no slot leaves. -/
def makesRoom (q : List Slot) (f : Frame) : Bool := (victim q).any fun v => decide (f.body.cls ≤ v.cls)

namespace State

def setQueue (s : State) (q : List Slot) : State := s.setLink { s.link with queue := q }

def setCollection (s : State) (c : Option Collection) : State := s.setLog { s.log with collection := c }

/-! ### BATCHes of the collection in hand (R159) -/

/-- The next BATCH of a collection and the collection after it, taken as the log stands (R159, R160). -/
def nextBatch (s : State) (c : Collection) : Option (Frame × Collection) :=
  let h := s.log.records.length
  let wanted : Option LogRec :=
    if logPlace s.log.next h c.next = .older ∨ c.next = 0 then s.log.records.head?
    else s.log.records.find? fun r => r.entry.number == c.next
  match wanted with
  | none => none
  | some r =>
    let last := c.remaining - 1 == 0 || r.entry.number == s.newestLog
    some (⟨c.collector, .batch c.part last s.newestLog s.log.uncollected (some r.entry)⟩,
      { c with next := nextLogNumber r.entry.number, remaining := c.remaining - 1, part := c.part + 1, waiting := true })

/-- A BATCH of the collection in hand has left the queue: a part marked last ends the collection (R159). -/
def batchLeft (s : State) (b : Body) : State :=
  match b, s.log.collection with
  | .batch _ last _ _ _, some c => s.setCollection (if last then none else some { c with waiting := false })
  | _, _ => s

/-- A slot leaves the queue: a frame of the restart list is due in this event (R182). -/
def noteLeft (s : State) : State :=
  if s.loader.restartList.isEmpty || s.marks.handDone then s else s.setMarks { s.marks with handDue := true }

/-- A frame was placed in a full queue `q`: a slot left for it, unless the frame itself was dropped (R171, R173). -/
def noteDropped (q : List Slot) (f : Frame) (s : State) : State := if makesRoom q f then s.noteLeft else s

/-- The collection queues its next BATCH, if none waits; the result says whether that BATCH was dropped at its queueing. -/
def batchStep (s : State) : State × Bool :=
  match s.log.collection with
  | none => (s, false)
  | some c =>
    if c.waiting then (s, false)
    else
      match s.nextBatch c with
      | none => (s.setCollection none, false)
      | some (f, c') =>
        let r := place s.link.queue f true
        let s1 := (s.setCollection (some c')).setQueue r.1
        match r.2 with
        | none => (s1, false)
        | some d =>
          let s2 := s1.noteDropped s.link.queue f
          if d.ofCollection then (s2.batchLeft d.frame.body, true) else (s2, false)

/-- A BATCH dropped at its queueing is told of in the same event, and the next part follows (R173). The fuel is the
parts remaining, and one. -/
def batchLoop : Nat → State → State
  | 0, s => s
  | n + 1, s => if s.batchStep.2 then batchLoop n s.batchStep.1 else s.batchStep.1

/-- Queue the collection's next BATCH, if there is a collection with none waiting. -/
def advanceCollection (s : State) : State :=
  match s.log.collection with
  | some c => s.batchLoop (c.remaining + 1)
  | none => s

/-- A slot has left the queue: its block is told of a BATCH of the collection (R173). -/
def tellLeft (d : Slot) (s : State) : State :=
  if d.ofCollection then (s.batchLeft d.frame.body).advanceCollection else s

/-! ### The restart list (R182) -/

/-- The list without the frames at its head that a newer DRAW or STOCK superseded (log 26). -/
def dropSuperseded : List Listed → List Listed
  | [] => []
  | x :: rest => if x.superseded then dropSuperseded rest else x :: rest

/-- Place a frame in the queue, and tell the block of a slot dropped for it. -/
def placeTold (f : Frame) (s : State) : State :=
  let r := place s.link.queue f false
  let s1 := s.setQueue r.1
  match r.2 with
  | none => s1
  | some d => tellLeft d (s1.noteDropped s.link.queue f)

/-- Hand the frame at the restart list's head to the queue (R182). -/
def handOne (s : State) : State :=
  match dropSuperseded s.loader.restartList with
  | [] => s.setLoader { s.loader with restartList := [] }
  | x :: rest => placeTold x.frame (s.setLoader { s.loader with restartList := rest })

/-- Make the handing of this event now. -/
def handNow (s : State) : State := handOne (s.setMarks { s.marks with handDue := false, handDone := true })

/-- A frame may be handed before or after what other blocks queue in the same event (R182, log 7). -/
def handMaybe (s : State) : State :=
  if s.marks.handDue then
    let c := s.choose
    if c.1 then c.2.handNow else c.2
  else s

/-- A frame of this kind and tank is queued: the restart list's older one is not to be handed (R182). -/
def supersede (b : Body) (s : State) : State :=
  if s.loader.restartList.any fun x => b.subject.isSome && x.frame.body.subject == b.subject then
    s.setLoader { s.loader with
      restartList := s.loader.restartList.map fun x =>
        if x.frame.body.subject == b.subject then { x with superseded := true } else x }
  else s

/-- A block queues a frame (R171). With straps 0 the frame leaves in the same event, unsent (R174). While a RESTART's
first step is made, the frame joins the restart list (R182). -/
def queueFrame (f : Frame) (s : State) : State :=
  if s.marks.forming then s.setLoader { s.loader with restartList := s.loader.restartList ++ [⟨f, false⟩] }
  else if s.own = 0 then s
  else
    let s0 := s.supersede f.body
    let r := place s0.link.queue f false
    let s1 := s0.setQueue r.1
    match r.2 with
    | none => s1
    | some d => tellLeft d (s1.noteDropped s0.link.queue f).handMaybe

/-- A slot that was taken out of the queue leaves (R173). -/
def slotLeaves (d : Slot) (s : State) : State :=
  let s1 := s.noteLeft
  if d.ofCollection then tellLeft d s1.handMaybe else s1

/-- A block withdraws its own waiting frame (R173): off the line it leaves now, on the line at its attempt's end. -/
def withdraw (pick : Slot → Bool) (s : State) : State :=
  match s.link.queue.find? pick with
  | none => s
  | some d =>
    if d.onLine then
      s.setQueue (modWhere pick (fun x => { x with withdrawn := true, ofCollection := false }) s.link.queue)
    else (s.setQueue (s.link.queue.eraseP pick)).noteLeft

/-- The end of an event: a handing still due is made (R182). -/
def finish (s : State) : State :=
  let s1 := if s.marks.handDue && !s.marks.handDone then s.handNow else s
  s1.setMarks .clear

end State

/-! ### Commands -/

/-- A command's meaning as an event of the part. -/
def event (f : State → State) (s : State) : Host.Outcome State Fault Refusal := .next (f s).finish

/-- An event at a block: taken once LOADING is over (R177); before, nothing is received or sampled (log 5). -/
def blockEvent (f : State → State) (s : State) : Host.Outcome State Fault Refusal :=
  if s.up then event f s else .next s

end Sys2Proof.Machine
end

