-- ==== Sys2Proof/Machine/AccountOps.lean ====
section
/-! DEFINITION. The operations of the Account Cache (06) and of the Delivery Log's ring (8.1 to 8.3) that run grants and run ends use. -/
namespace Sys2Proof.Machine

namespace State

/-! ### Records (R114 to R117) -/

/-- The held record of a tag. -/
def account (s : State) (tag : Tag) : Option CacheRec := s.accounts.cache.find? (·.acc.tag == tag)

def setCache (s : State) (l : List CacheRec) : State := s.setAccounts { s.accounts with cache := l }

def modAccount (s : State) (tag : Tag) (f : CacheRec → CacheRec) : State :=
  s.setCache (modWhere (·.acc.tag == tag) f s.accounts.cache)

/-- A held record becomes the most recently used (R116). -/
def touch (s : State) (tag : Tag) : State :=
  match s.account tag with
  | some r => s.setCache (r :: s.accounts.cache.eraseP (·.acc.tag == tag))
  | none => s

/-- A run attaches its tag's record (R117). -/
def attach (s : State) (tag : Tag) : State := s.modAccount tag fun r => { r with attached := r.attached + 1 }

/-- A run's end detaches it. -/
def detach (s : State) (tag : Tag) : State := s.modAccount tag fun r => { r with attached := r.attached - 1 }

end State

/-- The cache without its least recently used record of attachment count 0 (R117); a full cache always holds one (log 31). -/
def evict (l : List CacheRec) : List CacheRec :=
  if l.any fun r => r.attached == 0 then (l.reverse.eraseP fun r => r.attached == 0).reverse else l.dropLast

/-- Insertion at position 1, evicting from a full cache first (R117). The tag is not held (R114, log 31). -/
def insertAccount (r : AccountRec) (l : List CacheRec) : List CacheRec :=
  let others := l.filter fun x => x.acc.tag != r.tag
  ⟨r, 0⟩ :: (if others.length < Config.cacheRecords then others else evict others)

/-- The record a station makes itself when a seek brings no reply (R113). -/
def freshAccount (tag : Tag) (shift : Nat) : AccountRec where
  tag := tag
  edit := 0
  origin := 0
  hoursLast := none
  unbooked := 0
  burnAvg := none
  burnCount := 0
  anomaly := false
  shift := shift
  takenFuel := 0
  takenFluid := 0

/-- The shift roll (R27, R127). -/
def rollShift (shift : Nat) (r : AccountRec) : AccountRec :=
  if r.shift = shift then r else { r with shift := shift, takenFuel := 0, takenFluid := 0 }

/-- The taken count of a group. -/
def takenOf (r : AccountRec) : Group → Nat
  | .fuel => r.takenFuel
  | .fluid => r.takenFluid

/-- R127, step 2. -/
def addTaken (g : Group) (n : Nat) (r : AccountRec) : AccountRec :=
  match g with
  | .fuel => { r with takenFuel := satAdd max32 r.takenFuel n }
  | .fluid => { r with takenFluid := satAdd max32 r.takenFluid n }

/-! ### The close update (R127 to R130) -/

/-- The hours verdict of a run (R128, table). -/
def hoursVerdict (g : Group) (std : Nat) (reading last : Option Nat) : HoursVerdict :=
  if g = .fluid ∨ std = 0 then .notApplied
  else
    match reading, last with
    | none, _ => .absent
    | some _, none => .first
    | some h, some l => if h < l then .backwards else if h = l then .same else if 2000 < h - l then .longGap else .accepted

/-- The burn sample of an ACCEPTED verdict (R128). -/
def burnSample (v : HoursVerdict) (unbooked std : Nat) (reading last : Option Nat) : Option Nat :=
  match v, reading, last with
  | .accepted, some h, some l => some (min max32 ((unbooked + std) * 10 / (h - l)))
  | _, _, _ => none

/-- The effect of a verdict on hours last and fuel unbooked (R128, table). -/
def bookHours (v : HoursVerdict) (std : Nat) (reading : Option Nat) (r : AccountRec) : AccountRec :=
  match v with
  | .absent => { r with unbooked := satAdd max32 r.unbooked std }
  | .backwards => { r with unbooked := satAdd max32 r.unbooked std }
  | .same => { r with unbooked := satAdd max32 r.unbooked std }
  | .first => { r with hoursLast := reading, unbooked := 0 }
  | .longGap => { r with hoursLast := reading, unbooked := 0 }
  | .accepted => { r with hoursLast := reading, unbooked := 0 }
  | .notApplied => r

/-- The handling of a burn sample (R129). -/
def foldSample (sample : Option Nat) (r : AccountRec) : AccountRec :=
  match sample with
  | none => r
  | some x =>
    match r.burnAvg, r.burnCount with
    | none, _ => { r with burnAvg := some x, burnCount := 1, anomaly := false }
    | some _, 0 => { r with burnAvg := some x, burnCount := 1, anomaly := false }
    | some a, n + 1 =>
      if 4 ≤ n + 1 ∧ (x * 2 < a ∨ a * 2 < x) then { r with anomaly := true }
      else { r with burnAvg := some (foldBurn a x), burnCount := satAdd 255 (n + 1) 1, anomaly := false }

/-- What the close update gives besides the record. -/
structure CloseOut where
  acc : AccountRec
  verdict : HoursVerdict
  sample : Option Nat
  deriving DecidableEq, Repr

/-- The close update of a run with standard volume `std` on its record, at station `own` (R127 to R130). -/
def closeRecord (own : Nat) (run : RunRec) (std : Nat) (r : AccountRec) : CloseOut :=
  let r1 := addTaken run.group std (rollShift run.shift r)
  let v := hoursVerdict run.group std run.hours r1.hoursLast
  let sample := burnSample v r1.unbooked std run.hours r1.hoursLast
  let r2 := foldSample sample (bookHours v std run.hours r1)
  ⟨{ r2 with edit := r2.edit + 1, origin := own }, v, sample⟩

/-- The seeks without the oldest whose waiting list is empty; among six there is one (R122, log 31). -/
def abandon (l : List Seek) : List Seek :=
  if l.any fun k => k.waiting.isEmpty then l.eraseP fun k => k.waiting.isEmpty else l.drop 1

/-! ### The ring of delivery records (R155 to R157) -/

namespace State

/-- Write a delivery record, its number the next log number (R155, R156). -/
def writeRecord (s : State) (r : DeliveryRec) : State :=
  let l := s.log
  let full := decide (Config.logRecords ≤ l.records.length)
  let lost := match l.records.head? with
    | some x => full && !x.collected
    | none => false
  let kept := if full then l.records.drop 1 else l.records
  (s.setLog { l with
    records := kept ++ [⟨{ r with number := l.next }, false⟩]
    next := nextLogNumber l.next
    uncollected := l.uncollected + 1 - (if lost then 1 else 0) }).setPressing

/-- The close update fills in the record of that number (R154). -/
def fillRecord (s : State) (number : Nat) (f : DeliveryRec → DeliveryRec) : State :=
  s.setLog { s.log with
    records := modWhere (fun x => x.entry.number == number) (fun x => { x with entry := f x.entry }) s.log.records }

/-! ### Seeks (6.3) -/

def setSeeks (s : State) (l : List Seek) : State := s.setAccounts { s.accounts with seeks := l }

def seekFor (s : State) (tag : Tag) : Option Seek := s.accounts.seeks.find? (·.tag == tag)

/-- A point leaves the seeks' waiting lists (R118). -/
def leaveSeeks (s : State) (p : PointId) : State :=
  s.setSeeks (s.accounts.seeks.map fun k => { k with waiting := k.waiting.filter fun q => q != p })

/-- R118 and R122: the point joins the pending seek for the tag, or a new seek is started, abandoning the oldest with
an empty waiting list when six are pending. -/
def seekOrJoin (s : State) (tag : Tag) (p : PointId) (shift : Nat) : State :=
  match s.seekFor tag with
  | some _ => s.setSeeks (modWhere (·.tag == tag) (fun k => { k with waiting := k.waiting ++ [p] }) s.accounts.seeks)
  | none =>
    let l := s.accounts.seeks
    let room := if l.length < Config.maxSeeks then l else abandon l
    (s.setSeeks (room ++ [⟨tag, [p], shift, none, Config.seekMs⟩])).queueFrame ⟨0, .seek tag⟩

end State

end Sys2Proof.Machine
end

