-- ==== Sys2Proof/Machine/Runs.lean ====
section
/-! DEFINITION. The Point Controller's operations: valve and pump, DENY, the parts of a run's end (R49, R50), and the Flow Allotter's recomputation, admission and the run's end whole (R63 to R73). -/
namespace Sys2Proof.Machine

namespace State

def modPoint (s : State) (p : PointId) (f : Point → Point) : State := s.setPoint p (f (s.getPoint p))

def modChan (s : State) (p : PointId) (f : Channel → Channel) : State := s.setChan p (f (s.getChan p))

/-! ### Valve and pump -/

/-- The valve is commanded closed: the rate timer stops, the measured rate and the over-rate count become 0 (R16, R139), at a
RESTART too (log 43). -/
def closeValve (s : State) (p : PointId) : State :=
  if (s.getPoint p).valve.isSome then
    ((s.modPoint p fun x => { x with valve := none }).modChan p fun c =>
      { c with rateTimer := none, rateAcc := 0, rate := 0 }).setHose p { s.getHose p with overRate := 0 }
  else s

/-- The restart guard's full time at a point. -/
def guardTime (s : State) (p : PointId) : Timer :=
  match s.pointCfg p with
  | some c => startTimer (secs c.guard)
  | none => none

/-- The pump is switched off; from on to off starts the restart guard (R47, R48, R50). -/
def pumpOff (s : State) (p : PointId) : State :=
  if (s.getPoint p).pump then s.modPoint p fun x => { x with pump := false, guard := s.guardTime p } else s

/-! ### DENY -/

/-- A DENY is queued to the terminal (R54). -/
def deny (s : State) (terminal point : Nat) (tag : Tag) (r : DenyReason) : State :=
  s.queueFrame ⟨terminal, .deny point tag r⟩

/-- The DENY of a SEEKING point's pending OPEN, which leaves the seek's waiting list (R25). -/
def denyPending (s : State) (p : PointId) (r : DenyReason) : State :=
  match (s.getPoint p).openReq with
  | some o => ((s.deny o.terminal (pointNum p) o.tag r).leaveSeeks p).modPoint p fun x => { x with openReq := none }
  | none => s

/-- A point that leaves SEEKING other than for a zone or a fault: LINGER while its linger timer runs, else IDLE (R25). -/
def leaveSeeking (s : State) (p : PointId) : State :=
  s.modPoint p fun x =>
    if x.st = .seeking then { x with st := if x.linger.isSome then .linger else .idle, openReq := none } else x

/-! ### Run end (R49, R50) -/

/-- R49, steps 1 and 2, apart from the recomputation. -/
def endFirst (s : State) (p : PointId) : State :=
  let s1 := (s.closeValve p).modPoint p fun x =>
    { x with prime := none, noLift := none, queue := none, hold := none, stall := none, progress := none, target := 0 }
  match (s.getPoint p).run with
  | some r =>
    s1.modAllot r.tank fun t =>
      { t with admitted := t.admitted.filter fun q => q != p, queue := t.queue.filter fun q => q != p }
  | none => s1

/-- The delivery record at its write (R154); the close update fills in the rest. -/
def deliveryRecord (s : State) (p : PointId) (r : RunRec) (reason : EndReason) : DeliveryRec where
  number := s.log.next
  run := r.number
  point := p
  tank := r.tank
  product := r.product
  tag := r.tag
  terminal := r.terminal
  shift := r.shift
  hours := r.hours
  verdict := .notApplied
  requested := r.requested
  granted := r.granted
  limiter := r.limiter
  gross := (s.getChan p).runGross
  standard := (s.getChan p).runStd
  vcf := (s.getChan p).vcf
  duration :=
    match r.firstFlowing with
    | some t => min max32 ((s.loader.clockMs - t) / 1000)
    | none => 0
  reason := reason
  clamped := r.clamped
  dropout := r.dropout
  tempHeld := r.tempHeld
  anomaly := false
  burnSample := none

/-- R49, step 4: the close update on the tag's record; its verdict, sample and BURN_ANOMALY go to the delivery record,
and ACCOUNT is queued (R130). -/
def closeAccount (s : State) (r : RunRec) (std number : Nat) : State :=
  match s.account r.tag with
  | none => s
  | some c =>
    let out := closeRecord s.own r std c.acc
    let s1 := (s.modAccount r.tag fun c => { c with acc := out.acc }).touch r.tag
    (s1.fillRecord number fun d =>
      { d with verdict := out.verdict, burnSample := out.sample, anomaly := out.acc.anomaly }).queueFrame
        ⟨0, .account out.acc⟩

/-- The CLOSE of a run (R55). -/
def closeBody (p : PointId) (d : DeliveryRec) : CloseBody where
  point := pointNum p
  tag := d.tag
  run := d.run
  log := d.number
  reason := d.reason
  granted := d.granted
  gross := d.gross
  standard := d.standard
  vcf := d.vcf
  clamped := d.clamped
  dropout := d.dropout
  tempHeld := d.tempHeld
  anomaly := d.anomaly
  faulted := faultedSummary d.dropout d.tempHeld d.reason

/-- R50: LINGER if the pump is on and the linger time is above 0, else IDLE with the pump off. -/
def endLinger (s : State) (p : PointId) : State :=
  let time := match s.pointCfg p with
    | some c => startTimer (secs c.linger)
    | none => none
  if (s.getPoint p).pump && time.isSome then s.modPoint p fun x => { x with st := .linger, linger := time }
  else (s.pumpOff p).modPoint p fun x => { x with st := .idle }

/-- The point is LOCKED, its cause as its zones and faults stand. -/
def lock (s : State) (p : PointId) : State :=
  s.modPoint p fun x => { x with st := .locked, lockCause := s.lockCauseOf p }

/-- R50, table: the pump and the point state after a run's end. -/
def endState (s : State) (p : PointId) (reason : EndReason) : State :=
  match reason with
  | .quarantine => (s.pumpOff p).modPoint p fun x => { x with st := .idle }
  | .spill => (s.pumpOff p).modPoint p fun x => { x with st := .locked, lockCause := .zone }
  | .meter => (s.pumpOff p).lock p
  | .hose => (s.pumpOff p).lock p
  | .restart =>
    let s1 := s.pumpOff p
    if s1.lockCauseOf p = .none then s1.modPoint p fun x => { x with st := .idle } else s1.lock p
  | .preset => s.endLinger p
  | .hangup => s.endLinger p
  | .noLift => s.endLinger p
  | .noCapacity => s.endLinger p
  | .holdExpired => s.endLinger p
  | .cancel => s.endLinger p
  | .stall => s.endLinger p
  | .reserve => s.endLinger p

/-- Whether a run that ends has been through reserve tests in the event that ends it (R40): one in FLOWING or TAPER that a
failed test ends, or that its own credits end. -/
def testedAtEnd (s : State) (p : PointId) (reason : EndReason) : Bool :=
  (s.getPoint p).st.flows && (reason == .reserve || reason == .preset)

/-- The undelivered part of a run that ends leaves the sums with it (R49), but for the reserve tests of the event where the
run was one of those tested in it (R40, log 35). -/
def noteEnded (s : State) (p : PointId) (tank : Nat) (reason : EndReason) : State :=
  if s.testedAtEnd p reason then s.setMarks { s.marks with ended := (tank, s.undelivered p) :: s.marks.ended } else s

/-- R49, steps 3 to 7. -/
def endSecond (s : State) (p : PointId) (reason : EndReason) : State :=
  match (s.getPoint p).run with
  | none => s
  | some r =>
    let d := s.deliveryRecord p r reason
    let s1 := (s.writeRecord d).closeAccount r d.standard d.number
    let d1 := match s1.log.records.getLast? with
      | some x => x.entry
      | none => d
    let s2 := s1.queueFrame ⟨r.terminal, .close (closeBody p d1)⟩
    (((s2.noteEnded p r.tank reason).modPoint p fun x => { x with run := none }).detach r.tag).endState p reason

/-! ### Flow Allotter (03) -/

/-- The sum of the demands of a tank's LIVE peer entries (R62). -/
def liveDemand (s : State) (tank : Nat) : Nat :=
  match s.tankAllot tank with
  | some t => ((t.peers.filter fun e => e.cond == .live).map (·.demand)).sum
  | none => 0

/-- The available capacity A of a tank (R62). -/
def available (s : State) (tank : Nat) : Nat :=
  match s.tankCfg tank with
  | some c => c.header - s.liveDemand tank
  | none => 0

/-- The floor rate of a point. -/
def floorRate (s : State) (p : PointId) : Nat :=
  match s.pointCfg p with
  | some c => c.floorRate
  | none => 0

/-- The admitted list of a tank (R63). -/
def admitted (s : State) (tank : Nat) : List PointId :=
  match s.tankAllot tank with
  | some t => t.admitted
  | none => []

/-- The admission queue of a tank (R65). -/
def waiting (s : State) (tank : Nat) : List PointId :=
  match s.tankAllot tank with
  | some t => t.queue
  | none => []

/-- The floors of the admitted list (R63). -/
def floors (s : State) (tank : Nat) : Nat := ((s.admitted tank).map s.floorRate).sum

/-- Whether a point's floor fits: A less the floors of the admitted list is at least its floor rate (R64, R66). -/
def fits (s : State) (tank : Nat) (p : PointId) : Bool :=
  decide (s.floors tank + s.floorRate p ≤ s.available tank)

/-- A point opens its valve on admission (R35), apart from the reserve test. -/
def openValve (s : State) (p : PointId) : State :=
  match s.pointCfg p, (s.getPoint p).run with
  | some c, some r =>
    let taper := decide (r.granted ≤ (s.getChan p).runGross + c.taperVol)
    let r' := { r with firstFlowing := some (r.firstFlowing.getD s.loader.clockMs) }
    (s.modPoint p fun x =>
      { x with
        st := if taper then .taper else .flowing
        valve := some (if taper then min c.floorRate c.taperRate else c.floorRate)
        noLift := none, queue := none, hold := none, stall := startTimer (secs c.stall), run := some r' }).modChan p
      fun ch => { ch with creep := 0, rateAcc := 0, rateTimer := some Config.rateUpdateMs }
  | _, _ => s

/-- A point joins the tail of the admitted list and opens its valve (R63, R64). -/
def admitPoint (s : State) (tank : Nat) (p : PointId) : State :=
  (s.modAllot tank fun t =>
    { t with admitted := t.admitted.filter (fun q => q != p) ++ [p], queue := t.queue.filter fun q => q != p }).openValve p

/-- R67, step 1: admission is retried at the head, and again at each new head (R66). The fuel is the queue's length. -/
def retryHeads (tank : Nat) : Nat → State → State
  | 0, s => s
  | n + 1, s =>
    match s.waiting tank with
    | [] => s
    | p :: _ => if s.fits tank p then retryHeads tank n (s.admitPoint tank p) else s

/-- The points let in at the head from `s` to `t` whose reserve test fails at their opening (R35, R66). All are tested
before any of them ends (R40). -/
def openedShort (s t : State) (tank : Nat) : List PointId :=
  (s.waiting tank).filter fun p => !(t.waiting tank).contains p && t.reserveFails p

/-- A run ends at its opening, with no recomputation of its own (R66, log 35). -/
def endOpening (s : State) (p : PointId) : State := (s.endFirst p).endSecond p .reserve

/-- The target of an admitted point: a point in TAPER is limited to its taper rate (R69). -/
def limitTarget (s : State) (p : PointId) (t : Nat) : Nat :=
  match s.pointCfg p with
  | some c => if (s.getPoint p).st = .taper then min t c.taperRate else t
  | none => t

/-- The targets of a tank's admitted list, in start order (R68, R69). -/
def targets (s : State) (tank : Nat) : List (PointId × Nat) :=
  let rates := (s.admitted tank).map fun p =>
    match s.pointCfg p with
    | some c => (c.floorRate, c.maxRate)
    | none => (0, 0)
  (List.zip (s.admitted tank) (sharedTargets (s.available tank) rates)).map fun e => (e.1, s.limitTarget e.1 e.2)

/-- An admitted point takes its target; a commanded rate above it is cut at once (R71). -/
def setTarget (s : State) (p : PointId) (t : Nat) : State :=
  s.modPoint p fun x => { x with target := t, valve := x.valve.map fun c => min c t }

/-- A DRAW is queued for a tank, the announced values set to what it carries and its timer started (R73, R74). -/
def queueDraw (s : State) (tank : Nat) : State :=
  match s.tankAllot tank, s.entry tank with
  | some t, some e =>
    (s.modAllot tank fun t =>
      { t with announced := t.own, announcedDraw := e.ownDraw, timer := some Config.drawMs }).queueFrame
      ⟨0, .draw tank t.own t.admitted.length e.ownDraw⟩
  | _, _ => s

/-- Whether a change in demand calls for a DRAW (R73). -/
def drawDue (own announced : Nat) : Bool :=
  decide (announced + Config.drawStep ≤ own) || decide (own + Config.drawStep ≤ announced)
    || (own == 0) != (announced == 0)

/-- R67, steps 2 to 5. -/
def allotShares (s : State) (tank : Nat) : State :=
  let ts := s.targets tank
  let own := (ts.map (·.2)).sum
  let s1 := (ts.foldl (fun s e => s.setTarget e.1 e.2) s).modAllot tank fun t => { t with own := own }
  match s1.tankAllot tank with
  | some t => if drawDue t.own t.announced then s1.queueDraw tank else s1
  | none => s1

/-- A tank's allotment is recomputed (R67). A run that ended at its opening starts one further recomputation (R66). -/
def recomputeLoop (tank : Nat) : Nat → State → State
  | 0, s => s
  | n + 1, s =>
    let s1 := retryHeads tank (s.waiting tank).length s
    let short := openedShort s s1 tank
    let s2 := (s1.forEach short fun p s => s.endOpening p).allotShares tank
    if short.isEmpty then s2 else recomputeLoop tank n s2

def recompute (s : State) (tank : Nat) : State := s.recomputeLoop tank ((s.waiting tank).length + 1)

/-- A run ends (R49). The Flow Allotter recomputes within step 2, where the point leaves FLOWING, TAPER, HELD or its
queue (R65, R67). -/
def endRun (s : State) (p : PointId) (reason : EndReason) : State :=
  let x := s.getPoint p
  match x.run with
  | none => s
  | some r =>
    let s1 := s.endFirst p
    let s2 := if x.st.allots || x.st == .queued then s1.recompute r.tank else s1
    s2.endSecond p reason

/-- The Point Controller asks admission for a point (R64): it opens its valve and, if its reserve test fails, ends its
run (R35); or it enters QUEUED (R34, R65). The tank is recomputed. -/
def askAdmission (s : State) (p : PointId) : State :=
  match (s.getPoint p).run with
  | none => s
  | some r =>
    if (s.waiting r.tank).isEmpty && s.fits r.tank p then
      let s1 := s.admitPoint r.tank p
      let s2 := if s1.reserveFails p then s1.endRun p .reserve else s1
      s2.recompute r.tank
    else
      ((s.modPoint p fun x =>
        { x with st := .queued, queue := some Config.queueMs, noLift := none, hold := none }).modAllot r.tank fun t =>
        { t with queue := t.queue.filter (fun q => q != p) ++ [p] }).recompute r.tank

/-- The point enters READY (R33). -/
def enterReady (s : State) (p : PointId) : State :=
  match s.pointCfg p with
  | some c =>
    s.modPoint p fun x => { x with st := .ready, prime := none, queue := none, noLift := startTimer (secs c.noLift) }
  | none => s

/-- Every failing run of a tank ends with reason RESERVE; all are tested before any ends (R40). -/
def reserveSweep (s : State) (tank : Nat) : State :=
  s.forEach (s.reserveFailing tank) fun p s => s.endRun p .reserve

/-- The points whose runs one event ends leave the admission queues before any of the runs ends, so that no recomputation
made in between admits one of them (R4, R46, R47, R58, R182; log 41). -/
def leaveQueues (s : State) (ps : List PointId) : State :=
  s.setAllots (s.allot.map fun t => { t with queue := t.queue.filter fun q => !ps.contains q })

/-- QUARANTINED set on a tank acts on a point (R46). -/
def quarantinePoint (s : State) (p : PointId) : State :=
  let x := s.getPoint p
  if x.st.inRun then s.endRun p .quarantine
  else if x.st = .seeking then (s.denyPending p .quarantine).leaveSeeking p
  else s

/-- The points of a tank that its quarantine acts on. -/
def busyOn (s : State) (tank : Nat) : List PointId := (s.pointsOn tank).filter fun p => (s.getPoint p).st.busy

/-- QUARANTINED set on a tank (R46). -/
def quarantineTank (s : State) (tank : Nat) : State :=
  (s.leaveQueues (s.busyOn tank)).forEach (s.busyOn tank) fun p s => s.quarantinePoint p

end State

end Sys2Proof.Machine
end

