-- ==== Sys2Proof/Machine/Zones.lean ====
section
/-! DEFINITION. The Spill Monitor's operations: shutting and freeing points (R47, R147), point faults (R48), local trips (R141), zones becoming CLEAR (R145), the filter of R136, and the HOSE source (R140). -/
namespace Sys2Proof.Machine

/-- The point faults METER and HOSE (R48). -/
inductive PointFault where
  | meter | hose
  deriving DecidableEq, Repr

/-- The end reason of a point fault (R48). -/
def PointFault.reason : PointFault → EndReason
  | .meter => .meter
  | .hose => .hose

namespace State

/-! ### Points and zones -/

/-- A point is shut: its zone or zone 0 stopped being CLEAR (R47, first table). -/
def shutPoint (s : State) (p : PointId) : State :=
  match (s.getPoint p).st with
  | .idle => s.modPoint p fun x => { x with st := .locked, lockCause := .zone }
  | .seeking =>
    ((s.denyPending p .locked).pumpOff p).modPoint p fun x => { x with linger := none, st := .locked, lockCause := .zone }
  | .linger => (s.pumpOff p).modPoint p fun x => { x with linger := none, st := .locked, lockCause := .zone }
  | .locked => s.modPoint p fun x => { x with lockCause := .zone }
  | .priming => s.endRun p .spill
  | .ready => s.endRun p .spill
  | .queued => s.endRun p .spill
  | .flowing => s.endRun p .spill
  | .taper => s.endRun p .spill
  | .held => s.endRun p .spill

/-- A point whose zones are CLEAR again is freed, or shows the cause that keeps it LOCKED (R47, R147). -/
def freePoint (s : State) (p : PointId) : State :=
  let x := s.getPoint p
  if x.st = .locked ∧ s.zonesClear p then
    if x.permanent = .none ∧ !x.faultMeter ∧ !x.faultHose then
      s.modPoint p fun x => { x with st := .idle, lockCause := .none, guard := s.guardTime p }
    else s.modPoint p fun x => { x with lockCause := s.lockCauseOf p }
  else s

/-- A point fault joins the point's set and locks the point (R48). -/
def raiseFault (s : State) (p : PointId) (f : PointFault) : State :=
  let s1 := s.modPoint p fun x =>
    match f with
    | .meter => { x with faultMeter := true }
    | .hose => { x with faultHose := true }
  match (s.getPoint p).st with
  | .idle => (s1.pumpOff p).lock p
  | .linger => ((s1.pumpOff p).modPoint p fun x => { x with linger := none }).lock p
  | .seeking => (((s1.denyPending p .fault).pumpOff p).modPoint p fun x => { x with linger := none }).lock p
  | .locked => s1
  | .priming => s1.endRun p f.reason
  | .ready => s1.endRun p f.reason
  | .queued => s1.endRun p f.reason
  | .flowing => s1.endRun p f.reason
  | .taper => s1.endRun p f.reason
  | .held => s1.endRun p f.reason

/-- Act on the points told of a change of zone `z` (R147): those that are not busy only lock, in point order; the busy
ones in a free order (log 6). -/
def actTold (s : State) (z : Nat) (act : PointId → State → State) : State :=
  let told := allPoints.filter (s.toldOf z)
  let busy := told.filter fun p => (s.getPoint p).st.busy
  ((s.leaveQueues busy).inOrder (told.filter fun p => !(s.getPoint p).st.busy) act).forEach busy act

/-! ### Local trips (R141) -/

/-- A SPILL naming the zone's trip source is queued, and the repeat timer started afresh (R141, R143). -/
def sendSpill (s : State) (z : Nat) : State :=
  match s.zoneRec z with
  | some r =>
    match r.trip with
    | some (k, i) => (s.queueFrame ⟨0, .spill z k i⟩).modZone z fun r => { r with rpt := some Config.repeatMs }
    | none => s
  | none => s

/-- The zone becomes TRIPPED with its trip source, and the beacon follows (R141, R146). -/
def markTrip (s : State) (z : Nat) (kind : SourceKind) (index : Nat) : State :=
  (s.modZone z fun r => { r with st := .tripped, trip := some (kind, index) }).setBeacon

/-- A local trip of a zone (R141). `act` is what the event does to each point told when the zone leaves CLEAR. -/
def tripWith (s : State) (z : Nat) (kind : SourceKind) (index : Nat) (act : PointId → State → State) : State :=
  let s1 := s.markTrip z kind index
  (if s.zoneClear z then s1.actTold z act else s1).sendSpill z

def localTrip (s : State) (z : Nat) (kind : SourceKind) (index : Nat) : State :=
  s.tripWith z kind index fun p s => s.shutPoint p

/-- A zone becomes CLEAR: its trip source absent, its repeat timer stopped, its waiting SPILL withdrawn, its points
freed (R145, R147). -/
def clearZone (s : State) (z : Nat) : State :=
  let s1 := ((s.modZone z fun r => { r with st := .clear, trip := none, rpt := none }).setBeacon).withdraw
    fun x => x.frame.body.subject == some (13, z)
  s1.inOrder (allPoints.filter (s1.toldOf z)) fun p s => s.freePoint p

/-! ### The HOSE source (R138 to R140) -/

/-- The two hand-overs of a HOSE source going WET reach a point in either order (R48, log 7); the order matters only
for a busy point. -/
def hosePoint (p q : PointId) (s : State) : State :=
  if q = p then
    if (s.getPoint p).st.busy then
      let c := s.choose
      if c.1 then (c.2.raiseFault p .hose).shutPoint p else (c.2.shutPoint p).raiseFault p .hose
    else (s.raiseFault p .hose).shutPoint p
  else s.shutPoint q

/-- A HOSE source goes WET (R140): the point fault HOSE, and a local trip of the point's zone. -/
def hoseWet (s : State) (p : PointId) : State :=
  let s1 := s.setHose p { wet := true, sticky := true, overRate := 0 }
  match s.zoneOf p with
  | none => s1
  | some z =>
    if s.zoneClear z then s1.tripWith z .hose (pointNum p) (hosePoint p)
    else (s1.raiseFault p .hose).tripWith z .hose (pointNum p) (hosePoint p)

end State

/-! ### The filter of a line (R136) -/

/-- Whether a level is wet under a polarity (R135). -/
def isWet (pol : Polarity) (high : Bool) : Bool :=
  match pol with
  | .wetHigh => high
  | .wetLow => !high

/-- The source after a sample (R136, table). -/
def filterSample (c : LineCfg) (high : Bool) (x : LineSource) : LineSource :=
  let wet := isWet c.polarity high
  if wet = x.wet then { x with count := 0 }
  else if x.wet then
    if c.off ≤ x.count + 1 then { x with wet := false, count := 0 } else { x with count := x.count + 1 }
  else if c.on ≤ x.count + 1 then { x with wet := true, count := 0, sticky := true }
  else { x with count := x.count + 1 }

end Sys2Proof.Machine
end

