-- ==== Sys2Proof/Machine/StockOps.lean ====
section
/-! DEFINITION. The operations of the Stock Book and the Reconciler: draws (R80, R81), STOCK frames (R90, R91), publications (R83, R90), and window results (R101 to R108). -/
namespace Sys2Proof.Machine

namespace State

/-! ### STOCK frames (R90, R91) -/

/-- A STOCK for a tank is queued with a stock value and the entry's mark, flags, verdict and variance. -/
def queueStock (s : State) (tank value : Nat) : State :=
  match s.entry tank with
  | some e => s.queueFrame ⟨0, .stock tank value e.mark e.flags e.verdict e.variance⟩
  | none => s

/-- A repeat STOCK of a home tank: the book stock as its value, and the staleness timer restarted (R91). -/
def repeatStock (s : State) (tank : Nat) : State :=
  match s.entry tank with
  | some e => (s.modEntry tank fun e => { e with staleTimer := some Config.staleMs }).queueStock tank e.stock
  | none => s

def modFlags (s : State) (tank : Nat) (f : StockFlags → StockFlags) : State :=
  s.modEntry tank fun e => { e with flags := f e.flags }

/-! ### Draws -/

/-- Metered draws are added to an open window of a home tank (R102). -/
def countDraw (s : State) (tank n : Nat) : State :=
  s.modHome tank fun h =>
    if h.recon.window = .noWindow then h else { h with recon := { h.recon with m := satAdd max32 h.recon.m n } }

/-- One standard centilitre credited by a run on a tank (R80); a stopped DRAW timer is started (R73). -/
def ownDrawOne (s : State) (tank : Nat) : State :=
  ((s.modEntry tank fun e => { e with drawn := satAdd max32 e.drawn 1, ownDraw := e.ownDraw + 1 }).countDraw tank 1).modAllot
    tank fun t => { t with timer := some (t.timer.getD Config.drawMs) }

/-- What a DRAW's cumulative draw gives against the baseline (R81). -/
def deltaOf (e : BookEntry) (station : Nat) (cumulative : Word32) : Nat :=
  match e.baselines.find? (·.1 == station) with
  | none => 0
  | some b =>
    let d := (cumulative - b.2).toNat
    if d ≤ Config.maxDelta then d else 0

/-- The Stock Book takes a DRAW's cumulative draw: the baseline becomes it, and the delta counts as drawn (R81). -/
def applyDraw (s : State) (tank station : Nat) (cumulative : Word32) : State :=
  match s.entry tank with
  | none => s
  | some e =>
    let d := deltaOf e station cumulative
    (s.modEntry tank fun e =>
      { e with
        drawn := satAdd max32 e.drawn d
        baselines := insertRow (·.1) (station, cumulative) e.baselines }).countDraw tank d

/-! ### Reconciler (05) -/

def modRecon (s : State) (tank : Nat) (f : Recon → Recon) : State :=
  s.modHome tank fun h => { h with recon := f h.recon }

/-- Enter a result in the ring and in the book entry (R106). -/
def recordResult (s : State) (tank : Nat) (r : WinResult) : State :=
  (s.modRecon tank fun c =>
    { c with ring := (if c.ring.length < Config.ringResults then c.ring else c.ring.drop 1) ++ [r] }).modEntry tank fun e =>
    { e with verdict := r.verdict, variance := r.v }

/-- The LOSS source changes: the flag, the repeat STOCK, and the Spill Monitor (R108, R141). -/
def changeLoss (s : State) (tank : Nat) (wet : Bool) : State :=
  let s1 := ((s.modHome tank fun h => { h with lossWet := wet, lossSticky := h.lossSticky || wet }).modFlags tank fun f =>
    { f with loss := wet }).repeatStock tank
  match wet, s.tankCfg tank with
  | true, some c => s1.localTrip c.zone .loss tank
  | _, _ => s1

/-- The loss hysteresis of a verdict (R107). -/
def hysteresis (s : State) (tank : Nat) (v : Verdict) : State :=
  match s.homeOf tank, s.tankCfg tank with
  | some h, some c =>
    match v with
    | .none => s
    | .bad =>
      let n := satAdd 255 h.recon.bad 1
      let s1 := s.modRecon tank fun r => { r with bad := n, ok := 0 }
      if !h.lossWet && decide (c.lossOn ≤ n) then s1.changeLoss tank true else s1
    | .ok =>
      let n := satAdd 255 h.recon.ok 1
      let s1 := s.modRecon tank fun r => { r with bad := 0, ok := n }
      if h.lossWet && decide (c.lossOff ≤ n) then s1.changeLoss tank false else s1
    | .gain =>
      let n := satAdd 255 h.recon.ok 1
      let s1 := s.modRecon tank fun r => { r with bad := 0, ok := n }
      if h.lossWet && decide (c.lossOff ≤ n) then s1.changeLoss tank false else s1
  | _, _ => s

/-- A window is discarded with verdict NONE (R105). -/
def discardWindow (s : State) (tank : Nat) : State :=
  match s.homeOf tank with
  | none => s
  | some h =>
    if h.recon.window = .noWindow then s
    else
      (s.recordResult tank ⟨h.recon.number, 0, h.recon.m, 0, 0, .none⟩).modRecon tank fun c =>
        { c with window := .noWindow, length := none }

/-- A window opens at an accepted sample (R101). -/
def openWindow (s : State) (tank stock : Nat) : State :=
  match s.tankCfg tank with
  | none => s
  | some c =>
    s.modRecon tank fun r =>
      { r with
        window := .running
        number := r.next
        next := r.next + 1
        g0 := stock
        m := 0
        start := s.uptime
        length := some (secs (c.windowMin * 60)) }

/-- The result of a window that closes at a sample's accepted standard stock (R104). -/
def closingResult (c : TankCfg) (r : Recon) (stock : Nat) : WinResult :=
  let g : Int := (r.g0 : Int) - stock
  let v : Int := g - r.m
  let t := tolerance c r.m
  ⟨r.number, g, r.m, v, t, verdictOf v t⟩

/-- The accepted standard stock is handed to the Reconciler (R101, R104): a DUE window closes, its result is entered
and judged; then a window opens, unless RECEIVING is set or one is RUNNING. -/
def reconSample (s : State) (tank stock : Nat) : State :=
  match s.homeOf tank, s.tankCfg tank, s.entry tank with
  | some h, some c, some e =>
    match h.recon.window with
    | .running => s
    | .noWindow => if e.flags.receiving then s else s.openWindow tank stock
    | .due =>
      let r := closingResult c h.recon stock
      let s1 := ((s.recordResult tank r).modRecon tank fun x => { x with window := .noWindow, length := none }).hysteresis
        tank r.verdict
      if e.flags.receiving then s1 else s1.openWindow tank stock
  | _, _, _ => s

/-! ### Gauging (R86 to R90) -/

def modGauge (s : State) (tank : Nat) (f : Gauge → Gauge) : State :=
  s.modHome tank fun h => { h with gauge := f h.gauge }

/-- A held sample (R86): GAUGE_FAULT at the third, a DUE window then discarded (R105, log 24), and a repeat STOCK
while the fault is set. -/
def heldSample (s : State) (tank : Nat) : State :=
  match s.homeOf tank, s.entry tank with
  | some h, some e =>
    let n := satAdd 255 h.gauge.held 1
    let s1 := s.modGauge tank fun g => { g with held := n }
    let sets := decide (n = 3) && !e.flags.gaugeFault
    let s2 := if sets then s1.modFlags tank fun f => { f with gaugeFault := true } else s1
    let s3 := if sets && h.recon.window == .due then s2.discardWindow tank else s2
    if sets || e.flags.gaugeFault then s3.repeatStock tank else s3
  | _, _ => s

/-- A publication on the home tank's own entry, and the STOCK that carries it (R90). -/
def publish (s : State) (tank stock : Nat) (jump overStrap : Bool) : State :=
  (s.modEntry tank fun e =>
    { e with
      stockAtMark := stock
      mark := e.mark + 1
      drawn := 0
      flags := { e.flags with gaugeFault := false, gaugeJump := jump, overStrap := overStrap }
      cond := .current
      staleTimer := some Config.staleMs }).queueStock tank stock

/-- An accepted sample: strap table, standard conversion, publication, Reconciler, reserve test (R88 to R90). -/
def acceptSample (s : State) (tank level : Nat) (temp : Int) (jump : Bool) (strap : List (Nat × Nat)) : State :=
  match s.homeOf tank, s.entry tank with
  | some h, some e =>
    let alpha := match s.productCfg e.product with
      | some p => p.alpha
      | none => 0
    let vol := strapVolume strap level
    let good := if goodTemp temp then temp else h.gauge.lastTemp
    let stock := stockOf vol.1 (vcfOf alpha good)
    let s1 := s.modGauge tank fun g =>
      { g with
        rejected := 0
        lastLevel := some level
        lastVolume := vol.1
        lastStock := stock
        lastTemp := good
        tempHeld := !goodTemp temp }
    ((s1.publish tank stock jump vol.2).reconSample tank stock).reserveSweep tank
  | _, _ => s

/-- A sample marked valid with a level in range: the jump filter (R87). -/
def validSample (s : State) (tank level : Nat) (temp : Int) (c : HomeCfg) : State :=
  let s1 := s.modGauge tank fun g => { g with held := 0 }
  match s.homeOf tank, s.entry tank with
  | some h, some e =>
    let near := match h.gauge.lastLevel with
      | none => true
      | some l => decide (level - l ≤ c.jump ∧ l - level ≤ c.jump)
    if near || e.flags.receiving || e.flags.gaugeFault then s1.acceptSample tank level temp false c.strap
    else if h.gauge.rejected = 2 then s1.acceptSample tank level temp true c.strap
    else s1.modGauge tank fun g => { g with rejected := g.rejected + 1 }
  | _, _ => s1

/-! ### STOCK taken (R83, R84, R94) -/

/-- The flags, verdict and variance of a STOCK are copied; a QUARANTINED newly set acts on the tank's points, before
the reserve test (R94, R96). -/
def stockTaken (s : State) (tank : Nat) (flags : StockFlags) (f : BookEntry → BookEntry) : State :=
  match s.entry tank with
  | none => s
  | some e =>
    let s1 := s.modEntry tank f
    let s2 := if flags.quarantined && !e.flags.quarantined then s1.quarantineTank tank else s1
    s2.reserveSweep tank

end State

end Sys2Proof.Machine
end

