-- ==== Sys2Proof/Machine/Metering.lean ====
section
/-! DEFINITION. The Meter Channels' commands (01): METER_PULSE, TEMPERATURE_SAMPLE, SAMPLE_TIMER_EXPIRY, RATE_UPDATE, and the metering set up at a GRANT. -/
namespace Sys2Proof.Machine

namespace State

/-! ### Credits (R3, R4, R14) -/

/-- One standard centilitre of a run (R14): run standard, the own draw, and the reserve tests it makes; the points
whose test fails join `bad`. -/
def creditStd (p : PointId) (tank : Nat) (a : State × List PointId) : State × List PointId :=
  let s1 := (a.1.modChan p fun c => { c with runStd := satAdd 4000000 c.runStd 1 }).ownDrawOne tank
  (s1, a.2 ++ (s1.reserveFailing tank).filter fun q => !a.2.contains q)

/-- `n` standard centilitres. -/
def creditStds (p : PointId) (tank : Nat) : Nat → State × List PointId → State × List PointId
  | 0, a => a
  | n + 1, a => creditStds p tank n (creditStd p tank a)

/-- The standard arithmetic of one gross centilitre of a run (R14). -/
def standardCredit (p : PointId) (tank : Nat) (a : State × List PointId) : State × List PointId :=
  let res := (a.1.getChan p).stdRes + (a.1.getChan p).vcf
  creditStds p tank (res / 100000) (a.1.modChan p fun c => { c with stdRes := res % 100000 }, a.2)

/-- One gross centilitre credited (R4, table). -/
def creditGross (p : PointId) (a : State × List PointId) : State × List PointId :=
  let x := a.1.getPoint p
  let stallMs := match a.1.pointCfg p with
    | some c => startTimer (secs c.stall)
    | none => none
  let s1 := if x.stall.isSome then a.1.modPoint p fun x => { x with stall := stallMs } else a.1
  let b : State × List PointId :=
    match x.run with
    | some r => standardCredit p r.tank (s1.modChan p fun c => { c with runGross := satAdd 4000000 c.runGross 1 }, a.2)
    | none => (s1, a.2)
  (b.1.modChan p fun c =>
    if x.valve.isSome then { c with rateAcc := satAdd 65535 c.rateAcc 1 }
    else { c with creep := satAdd 2000000 c.creep 1 }, b.2)

/-- The credits of one pulse, made together (R3). -/
def creditPulse (p : PointId) : Nat → State × List PointId → State × List PointId
  | 0, a => a
  | n + 1, a => creditPulse p n (creditGross p a)

/-! ### What follows a pulse's credits (R4, R36, R37, R40, R138) -/

/-- How the crediting point's run ends after the credits: PRESET if the granted preset is reached, RESERVE if its
reserve test failed at one of them (R4). -/
def pulseEnd (s : State) (p : PointId) (bad : List PointId) : Option EndReason :=
  match (s.getPoint p).run with
  | some r =>
    if r.granted ≤ (s.getChan p).runGross then some .preset
    else if bad.contains p then some .reserve
    else none
  | none => none

/-- The taper crossing (R36, R69): FLOWING becomes TAPER, and the tank is recomputed. -/
def taperCross (s : State) (p : PointId) : State :=
  match s.pointCfg p, (s.getPoint p).run with
  | some c, some r =>
    if (s.getPoint p).st = .flowing ∧ r.granted ≤ (s.getChan p).runGross + c.taperVol then
      (s.modPoint p fun x => { x with st := .taper }).recompute r.tank
    else s
  | _, _ => s

/-- Whether the creep of a point whose valve is closed makes its HOSE source WET (R138). -/
def hoseDue (s : State) (p : PointId) : Bool :=
  (s.pointCfg p).isSome && (s.getPoint p).valve.isNone && !(s.getHose p).wet
    && decide (Config.hoseCreep < (s.getChan p).creep)

/-- What the credits of a pulse bring about, in the pulse's event: the taper crossing, or the end of the crediting run,
with the ends of other runs whose reserve test failed, and the HOSE source. The spec gives the taper crossing and the ends
of other runs no order: the model makes the crossing, with its recomputation, first (log 25). Which of the ends and the
HOSE source is first is free (log 8). A point whose run the pulse ends leaves its queue before any of them (log 41). -/
def afterCredits (s : State) (p : PointId) (bad : List PointId) : State :=
  let mine := s.pulseEnd p bad
  let enders := bad.filter (fun q => q != p) ++ (if mine.isSome then [p] else [])
  let s1 := (if mine.isSome then s else s.taperCross p).leaveQueues (if mine.isSome || s.hoseDue p then [p] else [])
  let act : PointId → State → State := fun q s =>
    if q = p then
      match mine with
      | some r => s.endRun p r
      | none => s
    else s.endRun q .reserve
  if s1.hoseDue p then
    if enders.isEmpty then s1.hoseWet p
    else
      let c := s1.choose
      if c.1 then (c.2.hoseWet p).forEach enders act else (c.2.forEach enders act).hoseWet p
  else s1.forEach enders act

/-! ### Pulses (R1, R2, R5) -/

/-- A paired pulse ends the one-channel streak; a streak of 3 or more sets PULSE_DROPOUT on an open run (R2). -/
def endStreak (s : State) (p : PointId) : State :=
  let drop := decide (3 ≤ (s.getChan p).streak)
  (s.modPoint p fun x => { x with run := x.run.map fun r => { r with dropout := r.dropout || drop } }).modChan p fun c =>
    { c with streak := 0 }

/-- A forward pulse (R1, R3). -/
def forwardPulse (s : State) (p : PointId) (k mf : Nat) : State :=
  let s1 := (s.endStreak p).modChan p fun c => { c with forward := satAdd max32 c.forward 1 }
  let res := (s1.getChan p).grossRes + mf
  let n := res / (k * 100)
  let a := creditPulse p n (s1.modChan p fun c => { c with grossRes := res % (k * 100) }, [])
  if n = 0 then a.1 else a.1.afterCredits p a.2

/-- The METER fault: the run ends with reason METER and the point is locked (R5, R48). -/
def meterFault (s : State) (p : PointId) (passed : Bool) : State :=
  if passed && (s.getPoint p).run.isSome then s.raiseFault p .meter else s

/-- A reverse pulse: its limit is K (R1, R5). -/
def reversePulse (s : State) (p : PointId) (k : Nat) : State :=
  let s1 := (s.endStreak p).modChan p fun c => { c with reverse := satAdd max32 c.reverse 1 }
  s1.meterFault p (decide (k < (s1.getChan p).reverse))

/-- An unmatched pulse: its limit is the mismatch limit (R2, R5). -/
def unmatchedPulse (s : State) (p : PointId) (limit : Nat) : State :=
  let s1 := s.modChan p fun c =>
    { c with unmatched := satAdd max32 c.unmatched 1, streak := satAdd 255 c.streak 1 }
  s1.meterFault p (decide (limit < (s1.getChan p).unmatched))

/-! ### Temperature (R9 to R12) -/

/-- A held sample: the probe-fault count, the probe fault at the third, TEMP_HELD on an open run, the timer (R10). -/
def heldTemperature (s : State) (p : PointId) : State :=
  (s.modChan p fun c =>
    { c with
      probeCount := satAdd 255 c.probeCount 1
      probeFault := c.probeFault || decide (3 ≤ satAdd 255 c.probeCount 1)
      sampleTimer := some Config.sampleMs }).modPoint p fun x =>
    { x with run := x.run.map fun r => { r with tempHeld := true } }

/-- The α of a point's product (1.1). -/
def alphaOf (s : State) (product : Nat) : Nat :=
  match s.productCfg product with
  | some c => c.alpha
  | none => 0

/-- A good sample (R9). -/
def goodTemperature (s : State) (p : PointId) (product : Nat) (value : Int) : State :=
  s.modChan p fun c =>
    { c with
      lastTemp := value
      goodSeen := true
      probeCount := 0
      probeFault := false
      vcf := vcfOf (s.alphaOf product) value
      sampleTimer := some Config.sampleMs }

/-- The metering of a run is set up in the GRANT's event (R7). -/
def grantMetering (s : State) (p : PointId) : State :=
  s.modChan p fun c =>
    { c with forward := 0, reverse := 0, unmatched := 0, streak := 0, grossRes := 0, stdRes := 0, runGross := 0, runStd := 0 }

/-- Whether a run starts on a held temperature (R7). -/
def startsHeld (s : State) (p : PointId) : Bool :=
  match s.pointCfg p with
  | some c => c.mode == .auto && (!(s.getChan p).goodSeen || decide (1 ≤ (s.getChan p).probeCount))
  | none => false

/-! ### Rate (R16, R70, R139) -/

/-- The measured rate of a rate update, the accumulator and the timer set afresh (R16). -/
def measureRate (s : State) (p : PointId) : State :=
  s.modChan p fun c => { c with rate := rateOf c.rateAcc, rateAcc := 0, rateTimer := some Config.rateUpdateMs }

/-- The commanded rate rises toward the target by at most the ramp step (R70). -/
def ramp (s : State) (p : PointId) (step : Nat) : State :=
  s.modPoint p fun x => { x with valve := x.valve.map fun c => if c < x.target then min x.target (c + step) else c }

/-- The over-rate test of the HOSE source (R139). -/
def overRate (s : State) (p : PointId) (maxRate : Nat) : State :=
  let h := s.getHose p
  if h.wet then s
  else if maxRate * 6 < (s.getChan p).rate * 5 then
    if 3 ≤ h.overRate + 1 then s.hoseWet p else s.setHose p { h with overRate := h.overRate + 1 }
  else s.setHose p { h with overRate := 0 }

end State

/-! ### The commands -/

/-- METER_PULSE (R1): an inactive channel takes no pulses (R18). -/
def execMeterPulse (p : PointId) (input : MeterInput) (s : State) : Host.Outcome State Fault Refusal :=
  blockEvent (fun s =>
    match s.pointCfg p with
    | none => s
    | some c =>
      let d := decodePulse (s.getChan p).pairing input
      let s1 := s.modChan p fun ch => { ch with pairing := d.2 }
      match d.1 with
      | .waiting => s1
      | .forward => s1.forwardPulse p c.k c.mf
      | .reverse => s1.reversePulse p c.k
      | .unmatched => s1.unmatchedPulse p c.mismatch) s

/-- TEMPERATURE_SAMPLE (R9, R10, R12). -/
def execTemperatureSample (p : PointId) (valid : Bool) (value : Int) (s : State) : Host.Outcome State Fault Refusal :=
  blockEvent (fun s =>
    match s.pointCfg p with
    | none => s
    | some c =>
      match c.mode with
      | .forced => s
      | .auto => if valid && goodTemp value then s.goodTemperature p c.product value else s.heldTemperature p) s

/-- SAMPLE_TIMER_EXPIRY (R11): it counts as a held sample and restarts the timer. -/
def execSampleTimerExpiry (p : PointId) (s : State) : Host.Outcome State Fault Refusal :=
  blockEvent (fun s => if (s.getChan p).sampleTimer.isSome then s.heldTemperature p else s) s

/-- RATE_UPDATE (R16, R70, R139). -/
def execRateUpdate (p : PointId) (s : State) : Host.Outcome State Fault Refusal :=
  blockEvent (fun s =>
    match s.pointCfg p with
    | none => s
    | some c =>
      if (s.getChan p).rateTimer.isSome then ((s.measureRate p).ramp p c.ramp).overRate p c.maxRate else s) s

end Sys2Proof.Machine
end

