-- ==== Sys2Proof/Machine/Tells.lean ====
section
/-! DEFINITION. The TELLs a station forms from its state (R57, R75, R97, R110, R132, R148, R175). -/
namespace Sys2Proof.Machine

/-- A TELL to the asking station. -/
def tell (dest : Nat) (subject : Subject) (part : Nat) (last : Bool) (a : Answer) : Frame :=
  ⟨dest, .tell subject part last a⟩

/-- TELL NOTHING carries the subject as asked (R175), as part 1 and last (log 23). -/
def nothingTell (dest : Nat) (subject : Subject) : Frame := tell dest subject 1 true .nothing

/-- Number the parts of an answer from 1, the final one marked last. -/
def numberParts (dest : Nat) (subject : Subject) : Nat → List Answer → List Frame
  | _, [] => []
  | n, [a] => [tell dest subject n true a]
  | n, a :: b :: rest => tell dest subject n false a :: numberParts dest subject (n + 1) (b :: rest)

/-- Split a list into runs of at most `n` items (R75, R110, R148). The fuel is the list's length. -/
def chunks {α : Type} (n : Nat) : Nat → List α → List (List α)
  | 0, _ => []
  | _, [] => []
  | k + 1, a :: rest => (a :: rest).take n :: chunks n k ((a :: rest).drop n)

namespace State

/-- The point's TELL (R57). -/
def pointAnswer (s : State) (p : PointId) : PointTell :=
  let x := s.getPoint p
  let c := s.getChan p
  { state := x.st
    lockCause := x.lockCause
    faultMeter := x.faultMeter
    faultHose := x.faultHose
    pump := x.pump
    valveOpen := x.valve.isSome
    commanded := x.valve.getD 0
    offHook := x.offHook
    measured := c.rate
    vcf := c.vcf
    probeFault := c.probeFault
    creep := c.creep
    forward := c.forward
    reverse := c.reverse
    unmatched := c.unmatched
    runGross := c.runGross
    runStandard := c.runStd
    run := x.run.map fun r => ⟨r.number, r.tag, r.granted, r.limiter, r.terminal⟩
    seekTag := x.openReq.map (·.tag) }

def pointTell (s : State) (dest : Nat) (p : PointId) : Frame :=
  tell dest (.point (pointNum p)) 1 true (.point (s.pointAnswer p))

/-- The first TELL of a tank (R97). -/
def tankAnswer (e : BookEntry) : TankTell where
  tank := e.tank
  product := e.product
  home := e.home
  cond := e.cond
  staleLeft := leftSecs e.staleTimer
  stockAtMark := e.stockAtMark
  mark := e.mark
  drawn := e.drawn
  bookStock := e.stock
  flags := e.flags
  verdict := e.verdict
  variance := e.variance
  ownDraw := e.ownDraw
  baselines := e.baselines.length

/-- The second TELL of a home tank (R97). -/
def homeAnswer (h : HomeTank) : HomeTell where
  level := h.gauge.lastLevel
  volume := h.gauge.lastVolume
  stock := h.gauge.lastStock
  held := h.gauge.held
  rejected := h.gauge.rejected
  temp := h.gauge.lastTemp
  tempHeld := h.gauge.tempHeld
  fillActive := h.fillActive
  settleLeft := leftSecs h.settle
  waterWet := h.water.wet
  waterSticky := h.water.sticky

/-- Queue several frames in order. -/
def queueFrames (s : State) (l : List Frame) : State := s.inOrder l queueFrame

/-- The TELLs of a tank in the book are queued, and a home tank's water-bottom sticky flag is cleared (R97). -/
def tellTank (s : State) (dest : Nat) (e : BookEntry) : State :=
  let home := match s.homeOf e.tank with
    | some h => [.home (homeAnswer h)]
    | none => []
  (s.modHome e.tank fun h => { h with water := { h.water with sticky := false } }).queueFrames
    (numberParts dest (.tank e.tank) 1 (.tank (tankAnswer e) :: home))

/-- The parts of a zone's answer (R148). -/
def zoneAnswers (s : State) (r : ZoneRec) : List Answer :=
  let src := s.localSources r.zone
  .zone
      { zone := r.zone
        state := r.st
        trip := r.trip
        repeatLeft := leftMs r.rpt
        lastSpill := r.lastSpill
        age := min 65535 (r.ageMs / 1000)
        maskBit := s.beaconMask.getLsbD r.zone
        beacon := s.spill.beacon
        sources := src.length
        wet := (src.filter (·.wet)).length }
    :: (chunks 10 src.length src).map .sources

/-- The sticky flags of a zone's spill lines, HOSE and LOSS sources are cleared as they are reported (R149). -/
def clearSticky (s : State) (z : Nat) : State :=
  let mine (k : SourceTell → Bool) : Bool := (s.localSources z).any k
  let s1 := s.setSpill { s.spill with
    lines := (List.range s.spill.lines.length).zipWith (fun i x =>
      if (s.spillSources z).any (fun t => t.index == i + 1) then { x with sticky := false } else x) s.spill.lines }
  let s2 := s1.inOrder (allPoints.filter fun p => mine fun t => t.kind == .hose && t.index == pointNum p) fun p s =>
    s.setHose p { s.getHose p with sticky := false }
  s2.setHomes (s2.homes.map fun h =>
    if mine fun t => t.kind == .loss && t.index == h.tank then { h with lossSticky := false } else h)

/-- The parts of a home tank's RECON answer (R110). -/
def reconAnswers (s : State) (h : HomeTank) (c : TankCfg) : List Answer :=
  let r := h.recon
  let brief := r.ring.reverse.map fun x => (x.number, x.verdict, x.v)
  let opened := r.window != .noWindow
  [.recon
      { tank := h.tank
        window := r.window
        number := r.number
        g0 := r.g0
        m := r.m
        since := if opened then s.uptime - r.start else 0
        lengthLeft := leftSecs r.length
        bad := r.bad
        ok := r.ok
        lossOn := c.lossOn
        lossOff := c.lossOff
        lossWet := h.lossWet
        newest := r.ring.getLast?
        results := r.ring.length },
    .ring (brief.take 4)] ++ (if 4 < brief.length then [.ring (brief.drop 4)] else [])

/-- The parts of a tank's PEERS answer (R75). -/
def peersAnswers (s : State) (t : TankAllot) (c : TankCfg) : List Answer :=
  .peers
      { tank := t.tank
        header := c.header
        liveSum := s.liveDemand t.tank
        available := s.available t.tank
        own := t.own
        announced := t.announced
        floors := s.floors t.tank
        admitted := t.admitted.map fun p =>
          (p, (s.getPoint p).st, (s.getPoint p).target, (s.getPoint p).valve.getD 0)
        queue := t.queue.map fun p => (p, leftSecs (s.getPoint p).queue) }
    :: (chunks 7 t.peers.length t.peers).map fun l =>
      .peerEntries t.tank (l.map fun e => ⟨e.station, e.cond, e.demand, e.flowing, min 65535 e.ageMs⟩)

/-- The answer about a tag's account (R132); its live runs are listed in the order P1 to P6 (log 23). -/
def accountAnswer (s : State) (tag : Tag) : Answer :=
  match s.account tag, s.seekFor tag with
  | some r, _ =>
    .account r.acc (s.accounts.cache.findIdx (fun x => x.acc.tag == tag) + 1) r.attached
      (allPoints.filterMap fun p =>
        match (s.getPoint p).run with
        | some x => if x.tag = tag then some (p, x.number) else none
        | none => none)
  | none, some k => .pendingSeek tag k.waiting k.left (k.candidate.map fun c => (c.1.edit, c.1.origin, c.2))
  | none, none => .nothing

end State

end Sys2Proof.Machine
end

