-- ==== Sys2Proof/Machine/Delivery.lean ====
section
/-! DEFINITION. The Point Controllers' commands (02): OPEN and the grant, HOLD, RESUME, CANCEL, UNLOCK of a point, the nozzle, and the point's timers. -/
namespace Sys2Proof.Machine

/-! ### OPEN (R23 to R25) -/

/-- Test 3 of R23, its rows in the order listed: a point that is not free. -/
def State.busyReason (s : State) (p : PointId) : Option DenyReason :=
  let x := s.getPoint p
  if x.st = .locked then
    if !s.zonesClear p then some .locked
    else if x.faultMeter || x.faultHose then some .fault
    else some .locked
  else if x.st.busy then some .busy
  else none

/-- The first test of R23 that fails, with the point where the OPEN is accepted. -/
def State.openTest (s : State) (point : Nat) (tag : Tag) (product preset : Nat) :
    Except DenyReason (PointId × PointCfg) :=
  if s.loader.phase = .listening ∨ s.loader.imageOk = false then .error .starting
  else
    match (pointOf point).bind fun p => (s.pointCfg p).map fun c => (p, c) with
    | none => .error .noPoint
    | some (p, c) =>
      match s.busyReason p with
      | some r => .error r
      | none =>
        if product ≠ c.product then .error .product
        else if preset < 100 then .error .badPreset
        else if (s.entry c.tank).any fun e => e.flags.quarantined then .error .quarantine
        else if !eligible c tag then .error .ineligible
        else .ok (p, c)

/-- The class's shift limit for a group, in whole litres; 0 means no limit (R27). -/
def ClassCfg.limit (c : ClassCfg) : Group → Nat
  | .fuel => c.limitFuel
  | .fluid => c.limitFluid

/-- The limiter and the least of the four terms (R29); the allowance takes part only where the class has a limit. -/
def leastTerm (requested pointMax reserve : Nat) (allowance : Option Nat) : Limiter × Nat :=
  let a := min (min requested pointMax) (min reserve (allowance.getD reserve))
  (if reserve = a then .reserve
    else if allowance = some a then .allowance
    else if pointMax = a then .pointMax
    else .requested, a)

/-- The DENY reason of a limiter (R29). -/
def denyReasonOf : Limiter → DenyReason
  | .reserve => .reserve
  | .allowance => .allowance
  | .pointMax => .badPreset
  | .requested => .badPreset

namespace State

/-- The reserve term (R28). -/
def reserveTerm (s : State) (tank priority : Nat) : Nat :=
  match s.entry tank, s.tankCfg tank with
  | some e, some t =>
    if e.cond = .unknown ∨ (e.cond = .stale ∧ priority ≤ 1) then 0
    else e.stock - t.floorFor priority * 100 - s.undeliveredOn tank
  | _, _ => 0

/-- The allowance term on a record already rolled to the OPEN's shift; none where the class has no limit (R27). -/
def allowanceTerm (s : State) (cls : ClassCfg) (g : Group) (tag : Tag) (r : AccountRec) : Option Nat :=
  if cls.limit g = 0 then none
  else some (cls.limit g * 100 - takenOf r g - s.undeliveredFor tag g)

/-- A GRANT (R30): the run record, its metering, the attachment, the timers, and the frame. -/
def grant (s : State) (p : PointId) (c : PointCfg) (group : Group) (priority : Nat) (o : OpenReq) (granted : Nat)
    (limiter : Limiter) : State :=
  let held := s.startsHeld p
  let run : RunRec :=
    { number := s.nextRun
      terminal := o.terminal
      tag := o.tag
      priority := priority
      product := c.product
      group := group
      tank := c.tank
      zone := c.zone
      shift := o.shift
      hours := o.hours
      requested := o.preset
      granted := granted
      limiter := limiter
      clamped := decide (granted < o.preset)
      dropout := false
      tempHeld := held
      lifted := false
      firstFlowing := none }
  let s1 := (((s.setNextRun (nextRunNumber s.nextRun)).grantMetering p).attach o.tag).modPoint p fun x =>
    { x with run := some run, openReq := none, progress := some Config.progressMs }
  let s2 := s1.queueFrame ⟨o.terminal, .grant (pointNum p) o.tag run.number o.preset granted limiter run.clamped⟩
  if (s.getPoint p).pump then (s2.modPoint p fun x => { x with linger := none }).enterReady p
  else
    s2.modPoint p fun x =>
      if x.guard.isSome then { x with st := .priming }
      else { x with st := .priming, pump := true, prime := startTimer (secs c.prime) }

/-- The grant computation of an OPEN whose tag's record is held (R27 to R29). -/
def decideOpen (s : State) (p : PointId) (o : OpenReq) : State :=
  match s.pointCfg p, s.account o.tag with
  | some c, some _ =>
    match s.productCfg c.product, s.classCfg o.tag.cls with
    | some prod, some cls =>
      let s1 := (s.modAccount o.tag fun r => { r with acc := rollShift o.shift r.acc }).touch o.tag
      let rolled := match s1.account o.tag with
        | some r => r.acc
        | none => freshAccount o.tag o.shift
      let t := leastTerm o.preset (c.maxRun * 100) (s1.reserveTerm c.tank cls.priority)
        (s1.allowanceTerm cls prod.group o.tag rolled)
      if t.2 < 100 then (s1.deny o.terminal (pointNum p) o.tag (denyReasonOf t.1)).leaveSeeking p
      else s1.grant p c prod.group cls.priority o t.2 t.1
    | _, _ => s
  | _, _ => s

/-- An OPEN the station takes (R23, R24). -/
def takeOpen (src point : Nat) (tag : Tag) (product preset : Nat) (hours : Option Nat) (shift : Nat) (s : State) : State :=
  match s.openTest point tag product preset with
  | .error r => s.deny src point tag r
  | .ok (p, _) =>
    let o : OpenReq := ⟨src, tag, preset, hours.filter (fun h => h ≤ Config.maxHours), shift⟩
    match s.account tag with
    | some _ => s.decideOpen p o
    | none => (s.modPoint p fun x => { x with st := .seeking, openReq := some o }).seekOrJoin tag p shift

/-! ### HOLD, RESUME, CANCEL (R41 to R45) -/

/-- Whether a request's run number lets it reach the point's live run (R41). -/
def runNamed (s : State) (p : PointId) (run : Option Nat) : Bool :=
  match (s.getPoint p).run, run with
  | some _, none => true
  | some r, some n => r.number == n
  | none, _ => false

/-- HOLD in FLOWING or TAPER (R42). -/
def holdPoint (s : State) (p : PointId) : State :=
  match s.pointCfg p, (s.getPoint p).run with
  | some c, some r =>
    if (s.getPoint p).st.flows then
      (((s.closeValve p).modPoint p fun x =>
        { x with st := .held, stall := none, hold := startTimer (secs c.hold), target := 0 }).modAllot r.tank fun t =>
        { t with admitted := t.admitted.filter fun q => q != p }).recompute r.tank
    else s
  | _, _ => s

def takeHold (point : Nat) (run : Option Nat) (s : State) : State :=
  match pointOf point with
  | some p => if s.runNamed p run then s.holdPoint p else s
  | none => s

/-- RESUME in HELD (R44). -/
def takeResume (point : Nat) (run : Option Nat) (s : State) : State :=
  match pointOf point with
  | some p =>
    if s.runNamed p run && (s.getPoint p).st == .held then
      (s.modPoint p fun x => { x with hold := none }).askAdmission p
    else s
  | none => s

/-- CANCEL in a run state, or without a run number in SEEKING (R25, R45). -/
def takeCancel (point : Nat) (run : Option Nat) (s : State) : State :=
  match pointOf point with
  | some p =>
    if (s.getPoint p).st = .seeking then
      if run = none then (s.denyPending p .cancelled).leaveSeeking p else s
    else if s.runNamed p run then s.endRun p .cancel
    else s
  | none => s

/-! ### UNLOCK of a point (R52) -/

/-- A point number outside 1..6 is outside its field's range, and the UNLOCK is ignored (R183, log 21). -/
def takeUnlockPoint (src point : Nat) (s : State) : State :=
  match pointOf point with
  | none => s
  | some p =>
    let x := s.getPoint p
    if x.faultMeter || x.faultHose then
      let s1 := (s.modPoint p fun x => { x with faultMeter := false, faultHose := false }).setHose p
        { s.getHose p with wet := false, overRate := 0 }
      let s2 :=
        if x.permanent ≠ .none then s1.modPoint p fun x => { x with lockCause := s1.lockCauseOf p }
        else if s1.zonesClear p then
          s1.modPoint p fun x => { x with st := .idle, lockCause := .none, guard := s1.guardTime p }
        else s1.modPoint p fun x => { x with lockCause := .zone }
      s2.queueFrame (s2.pointTell src p)
    else s.queueFrame (nothingTell src (.point point))

/-! ### The nozzle (R32 to R34, R38) -/

/-- Whether a point's nozzle input is sampled (R22). -/
def nozzleSampled (s : State) (p : PointId) : Bool := (s.pointCfg p).isSome

/-- The nozzle goes off hook: lifted is set while a run is live, and in READY admission is asked (R32, R33). -/
def liftNozzle (s : State) (p : PointId) : State :=
  let s1 := s.modPoint p fun x =>
    { x with offHook := true, run := x.run.map fun r => { r with lifted := true } }
  if (s1.getPoint p).st = .ready then s1.askAdmission p else s1

/-- The nozzle goes on hook: lifted is cleared, and what follows depends on the state (R32, R33, R34, R38). -/
def hangNozzle (s : State) (p : PointId) : State :=
  let s1 := s.modPoint p fun x =>
    { x with offHook := false, run := x.run.map fun r => { r with lifted := false } }
  match (s1.getPoint p).st, (s1.getPoint p).run with
  | .flowing, _ => s1.endRun p .hangup
  | .taper, _ => s1.endRun p .hangup
  | .held, _ => s1.endRun p .hangup
  | .queued, some r =>
    ((s1.enterReady p).modAllot r.tank fun t => { t with queue := t.queue.filter fun q => q != p }).recompute r.tank
  | _, _ => s1

end State

/-! ### The commands -/

/-- OPEN (R23): target 0 is ignored. -/
def execOpen (src tgt point : Nat) (tag : Tag) (product preset : Nat) (hours : Option Nat) (shift : Nat) (s : State) :
    Host.Outcome State Fault Refusal :=
  blockEvent (receiveNamed src tgt (State.takeOpen src point tag product preset hours shift)) s

/-- HOLD (R42). -/
def execHold (src tgt point : Nat) (run : Option Nat) (s : State) : Host.Outcome State Fault Refusal :=
  blockEvent (receiveNamed src tgt (State.takeHold point run)) s

/-- RESUME (R44). -/
def execResume (src tgt point : Nat) (run : Option Nat) (s : State) : Host.Outcome State Fault Refusal :=
  blockEvent (receiveNamed src tgt (State.takeResume point run)) s

/-- CANCEL (R45). -/
def execCancel (src tgt point : Nat) (run : Option Nat) (s : State) : Host.Outcome State Fault Refusal :=
  blockEvent (receiveNamed src tgt (State.takeCancel point run)) s

/-- UNLOCK of a point (R52). -/
def execUnlockPoint (src tgt point : Nat) (s : State) : Host.Outcome State Fault Refusal :=
  blockEvent (receiveNamed src tgt (State.takeUnlockPoint src point)) s

/-- NOZZLE_LIFT (R32): a lift is the input's going from on hook to off hook. -/
def execNozzleLift (p : PointId) (s : State) : Host.Outcome State Fault Refusal :=
  blockEvent (fun s => if s.nozzleSampled p && !(s.getPoint p).offHook then s.liftNozzle p else s) s

/-- HANG_UP (R38): a hang-up is the input's going from off hook to on hook. -/
def execHangUp (p : PointId) (s : State) : Host.Outcome State Fault Refusal :=
  blockEvent (fun s => if s.nozzleSampled p && (s.getPoint p).offHook then s.hangNozzle p else s) s

/-- RESTART_GUARD_EXPIRY (R31, R51): it lets a waiting PRIMING point switch its pump on. -/
def execRestartGuardExpiry (p : PointId) (s : State) : Host.Outcome State Fault Refusal :=
  blockEvent (fun s =>
    if (s.getPoint p).guard.isSome then
      s.modPoint p fun x =>
        if x.st = .priming ∧ x.pump = false then
          { x with
            guard := none
            pump := true
            prime := (s.pointCfg p).bind fun c => startTimer (secs c.prime) }
        else { x with guard := none }
    else s) s

/-- PRIME_TIMER_EXPIRY (R31, R33): the point enters READY, and asks admission at once if lifted is set. -/
def execPrimeTimerExpiry (p : PointId) (s : State) : Host.Outcome State Fault Refusal :=
  blockEvent (fun s =>
    if (s.getPoint p).prime.isSome then
      let s1 := s.enterReady p
      if ((s1.getPoint p).run.map (·.lifted)) = some true then s1.askAdmission p else s1
    else s) s

/-- NO_LIFT_TIMER_EXPIRY (R33). -/
def execNoLiftTimerExpiry (p : PointId) (s : State) : Host.Outcome State Fault Refusal :=
  blockEvent (fun s => if (s.getPoint p).noLift.isSome then s.endRun p .noLift else s) s

/-- QUEUE_TIMER_EXPIRY (R34). -/
def execQueueTimerExpiry (p : PointId) (s : State) : Host.Outcome State Fault Refusal :=
  blockEvent (fun s => if (s.getPoint p).queue.isSome then s.endRun p .noCapacity else s) s

/-- HOLD_TIMER_EXPIRY (R43). -/
def execHoldTimerExpiry (p : PointId) (s : State) : Host.Outcome State Fault Refusal :=
  blockEvent (fun s => if (s.getPoint p).hold.isSome then s.endRun p .holdExpired else s) s

/-- STALL_TIMER_EXPIRY (R39). -/
def execStallTimerExpiry (p : PointId) (s : State) : Host.Outcome State Fault Refusal :=
  blockEvent (fun s => if (s.getPoint p).stall.isSome then s.endRun p .stall else s) s

/-- LINGER_TIMER_EXPIRY (R51, R24): the pump goes off and the guard starts; a SEEKING point stays SEEKING. -/
def execLingerTimerExpiry (p : PointId) (s : State) : Host.Outcome State Fault Refusal :=
  blockEvent (fun s =>
    if (s.getPoint p).linger.isSome then
      (s.pumpOff p).modPoint p fun x => { x with linger := none, st := if x.st = .linger then .idle else x.st }
    else s) s

/-- PROGRESS_TIMER_EXPIRY (R53). -/
def execProgressTimerExpiry (p : PointId) (s : State) : Host.Outcome State Fault Refusal :=
  blockEvent (fun s =>
    match (s.getPoint p).progress, (s.getPoint p).run with
    | some _, some r =>
      let x := s.getPoint p
      let c := s.getChan p
      (s.modPoint p fun x => { x with progress := some Config.progressMs }).queueFrame
        ⟨r.terminal, .progress (pointNum p) r.number x.st c.runGross c.runStd (x.valve.getD 0) c.probeFault⟩
    | _, _ => s) s

end Sys2Proof.Machine
end

