-- ==== Sys2Proof/Machine/Allotment.lean ====
section
/-! DEFINITION. The Flow Allotter's commands (03): DRAW (taken by the Stock Book too, R81), PEER_DEMAND_EXPIRY, DRAW_TIMER_EXPIRY; the expiring of a peer's entries (R61). -/
namespace Sys2Proof.Machine

/-- A peer's demand entry as a DRAW sets it (R60). -/
def drawnEntry (station demand flowing : Nat) : PeerEntry where
  station := station
  demand := demand
  flowing := flowing
  ageMs := 0
  cond := .live

/-- A peer's entry expired: its demand and flowing count are kept (R61). -/
def PeerEntry.expire (station : Nat) (e : PeerEntry) : PeerEntry :=
  if e.station = station then { e with cond := .expired } else e

/-- Whether a tank holds a LIVE entry of a station. -/
def TankAllot.liveFrom (station : Nat) (t : TankAllot) : Bool :=
  t.peers.any fun e => e.station == station && e.cond == .live

namespace State

/-- The Flow Allotter takes a DRAW (R60). -/
def allotDraw (tank station demand flowing : Nat) (s : State) : State :=
  (s.modAllot tank fun t =>
    { t with peers := insertRow (·.station) (drawnEntry station demand flowing) t.peers }).recompute tank

/-- The Stock Book takes a DRAW, and an applied delta is tested for the tank's runs (R81, R40). -/
def bookDraw (tank station : Nat) (cumulative : Word32) (s : State) : State :=
  match s.entry tank with
  | none => s
  | some e =>
    let s1 := s.applyDraw tank station cumulative
    if deltaOf e station cumulative = 0 then s1 else s1.reserveSweep tank

/-- A DRAW taken by the Flow Allotter and the Stock Book (R60, R81). Which of them is first is free where it shows: where
the recomputation could let a point in or the delta end a run (R166, log 8). -/
def takeDraw (src tank demand flowing : Nat) (cumulative : Word32) (s : State) : State :=
  if flowing ≤ 6 ∧ (s.entry tank).isSome ∧ s.trusts src then
    let shows := !(s.waiting tank).isEmpty || !((s.applyDraw tank src cumulative).reserveFailing tank).isEmpty
    if shows then
      let c := s.choose
      if c.1 then (c.2.bookDraw tank src cumulative).allotDraw tank src demand flowing
      else (c.2.allotDraw tank src demand flowing).bookDraw tank src cumulative
    else (s.allotDraw tank src demand flowing).bookDraw tank src cumulative
  else s

/-- A peer's LIVE entries expire, and each tank concerned is recomputed (R61), the tanks in a free order (log 6). -/
def expirePeer (s : State) (station : Nat) : State :=
  let tanks := (s.allot.filter (TankAllot.liveFrom station)).map (·.tank)
  (s.setAllots (s.allot.map fun t => { t with peers := t.peers.map (PeerEntry.expire station) })).forEach tanks
    fun t s => s.recompute t

end State

/-- DRAW (R60, R81). -/
def execDraw (src tgt tank demand flowing : Nat) (cumulative : Word32) (s : State) : Host.Outcome State Fault Refusal :=
  blockEvent (receive src tgt (State.takeDraw src tank demand flowing cumulative)) s

/-- Whether a tank holds a LIVE entry of a station 3 s after its last taken DRAW (R61). -/
def TankAllot.expiresFrom (station : Nat) (t : TankAllot) : Bool :=
  t.peers.any fun e => e.station == station && e.cond == .live && decide (Config.demandMs ≤ e.ageMs)

/-- PEER_DEMAND_EXPIRY (R61): a LIVE entry becomes EXPIRED 3 s after its last taken DRAW, and the tank is recomputed. Sooner
after a DRAW the expiry does not happen (log 29). -/
def execPeerDemandExpiry (station tank : Nat) (s : State) : Host.Outcome State Fault Refusal :=
  blockEvent (fun s =>
    match s.tankAllot tank with
    | some t =>
      if t.expiresFrom station then
        (s.modAllot tank fun t => { t with peers := t.peers.map (PeerEntry.expire station) }).recompute tank
      else s
    | none => s) s

/-- DRAW_TIMER_EXPIRY (R73): the DRAW is repeated, or the timer stops. -/
def execDrawTimerExpiry (tank : Nat) (s : State) : Host.Outcome State Fault Refusal :=
  blockEvent (fun s =>
    match s.tankAllot tank, s.entry tank with
    | some t, some e =>
      if t.timer.isSome then
        if 0 < t.own ∨ e.ownDraw ≠ t.announcedDraw then s.queueDraw tank
        else s.modAllot tank fun t => { t with timer := none }
      else s
    | _, _ => s) s

end Sys2Proof.Machine
end

