-- ==== Sys2Proof/Machine/Stock.lean ====
section
/-! DEFINITION. The Stock Book's and the Reconciler's commands (04, 05): STOCK, STALENESS_TIMER_EXPIRY, GAUGE_SAMPLE, GAUGE_TIMER_EXPIRY, the fill line and its settle timer, UNLOCK of a tank, LENGTH_TIMER_EXPIRY. -/
namespace Sys2Proof.Machine

/-! ### STOCK (R83, R84) -/

/-- The six flags, last verdict and last variance of a STOCK are copied. -/
def BookEntry.copy (flags : StockFlags) (verdict : Verdict) (variance : Int) (e : BookEntry) : BookEntry :=
  { e with flags := flags, verdict := verdict, variance := variance }

/-- A STOCK that carries GAUGE_FAULT: the figures stay, and an UNKNOWN entry stays UNKNOWN with its timer as it was (R84). -/
def BookEntry.faultedStock (e : BookEntry) : BookEntry :=
  if e.cond = .unknown then e else { e with cond := .current, staleTimer := some Config.staleMs }

/-- A repeat restarts the staleness timer (R83). -/
def BookEntry.repeated (e : BookEntry) : BookEntry := { e with staleTimer := some Config.staleMs }

/-- A publication (R83). -/
def BookEntry.published (value : Nat) (mark : Byte) (e : BookEntry) : BookEntry :=
  { e with
    stockAtMark := value
    mark := mark
    drawn := 0
    cond := .current
    staleTimer := some Config.staleMs }

/-- What a taken STOCK does to the entry (R83, R84). -/
def BookEntry.take (value : Nat) (mark : Byte) (flags : StockFlags) (verdict : Verdict) (variance : Int)
    (e : BookEntry) : BookEntry :=
  let e1 := e.copy flags verdict variance
  if flags.gaugeFault then e1.faultedStock
  else if e.cond = .current ∧ e.mark = mark then e1.repeated
  else e1.published value mark

namespace State

/-- A STOCK for a tank in the book, from its home station, which is trusted (R83). -/
def takeStock (src tank value : Nat) (mark : Byte) (flags : StockFlags) (verdict : Verdict) (variance : Int)
    (s : State) : State :=
  match s.entry tank with
  | none => s
  | some e =>
    if e.home = src ∧ s.trusts src then s.stockTaken tank flags (BookEntry.take value mark flags verdict variance)
    else s

/-- An entry becomes STALE, its timer stopped (R79). -/
def goStale (s : State) (tank : Nat) : State :=
  (s.modEntry tank fun e => { e with cond := .stale, staleTimer := none }).reserveSweep tank

/-! ### The fill line (R92) -/

/-- RECEIVING is set: the rejected count becomes 0 (R87), an open window is discarded (R105), and then the repeat STOCK
is queued (R91). -/
def setReceiving (s : State) (tank : Nat) : State :=
  (((s.modFlags tank fun f => { f with receiving := true }).modGauge tank fun g => { g with rejected := 0 }).discardWindow
    tank).repeatStock tank

/-- RECEIVING is cleared, and a repeat STOCK queued (R91, R92). -/
def clearReceiving (s : State) (tank : Nat) : State :=
  (s.modFlags tank fun f => { f with receiving := false }).repeatStock tank

/-- Whether RECEIVING is set on a tank. -/
def receiving (s : State) (tank : Nat) : Bool := (s.entry tank).any fun e => e.flags.receiving

/-! ### UNLOCK of a tank (R95) -/

/-- A tank number outside 1..16 is outside its field's range, and the UNLOCK is ignored (R183, log 21). -/
def takeUnlockTank (src tank : Nat) (s : State) : State :=
  if tank = 0 ∨ 16 < tank then s
  else
    match s.homeOf tank, s.entry tank with
    | some h, some e =>
      if !e.flags.quarantined then s.queueFrame (nothingTell src (.tank tank))
      else if h.water.wet then s.queueFrame (tell src (.tank tank) 1 true .refusedWet)
      else
        let s1 := (s.modFlags tank fun f => { f with quarantined := false }).repeatStock tank
        match s1.entry tank with
        | some e1 => s1.tellTank src e1
        | none => s1
    | _, _ => s.queueFrame (nothingTell src (.tank tank))

end State

/-! ### The commands -/

/-- STOCK (R83, R84). -/
def execStock (src tgt tank value : Nat) (mark : Byte) (flags : StockFlags) (verdict : Verdict) (variance : Int)
    (s : State) : Host.Outcome State Fault Refusal :=
  blockEvent (receive src tgt (State.takeStock src tank value mark flags verdict variance)) s

/-- STALENESS_TIMER_EXPIRY (R79): a CURRENT entry becomes STALE. -/
def execStalenessTimerExpiry (tank : Nat) (s : State) : Host.Outcome State Fault Refusal :=
  blockEvent (fun s =>
    match s.entry tank with
    | some e =>
      if e.staleTimer.isSome then
        if e.cond = .current then s.goStale tank else s.modEntry tank fun e => { e with staleTimer := none }
      else s
    | none => s) s

/-- GAUGE_SAMPLE (R86): the sample restarts the gauge timer, and is held, or goes on to the jump filter. -/
def execGaugeSample (pos : Nat) (valid : Bool) (level temp : Int) (s : State) : Host.Outcome State Fault Refusal :=
  blockEvent (fun s =>
    match s.homeAt pos, s.homeCfg pos with
    | some h, some c =>
      let s1 := s.modGauge h.tank fun g => { g with timer := some Config.gaugeFirstMs }
      if valid ∧ 0 ≤ level ∧ level ≤ 20000 then s1.validSample h.tank level.toNat temp c else s1.heldSample h.tank
    | _, _ => s) s

/-- GAUGE_TIMER_EXPIRY (R86): it counts as a held sample. -/
def execGaugeTimerExpiry (pos : Nat) (s : State) : Host.Outcome State Fault Refusal :=
  blockEvent (fun s =>
    match s.homeAt pos with
    | some h =>
      if h.gauge.timer.isSome then
        (s.modGauge h.tank fun g => { g with timer := some Config.gaugeNextMs }).heldSample h.tank
      else s
    | none => s) s

/-- FILL_LINE_ACTIVE (R92): the settle timer is stopped, and RECEIVING is set if it is not. -/
def execFillLineActive (pos : Nat) (s : State) : Host.Outcome State Fault Refusal :=
  blockEvent (fun s =>
    match s.homeAt pos with
    | some h =>
      if h.fillActive then s
      else
        let s1 := s.modHome h.tank fun h => { h with fillActive := true, settle := none }
        if s1.receiving h.tank then s1 else s1.setReceiving h.tank
    | none => s) s

/-- FILL_LINE_INACTIVE (R92): the settle timer is started. -/
def execFillLineInactive (pos : Nat) (s : State) : Host.Outcome State Fault Refusal :=
  blockEvent (fun s =>
    match s.homeAt pos, s.homeCfg pos with
    | some h, some c =>
      if h.fillActive then s.modHome h.tank fun h => { h with fillActive := false, settle := some (secs c.settle) } else s
    | _, _ => s) s

/-- SETTLE_TIMER_EXPIRY (R92): RECEIVING is cleared. -/
def execSettleTimerExpiry (pos : Nat) (s : State) : Host.Outcome State Fault Refusal :=
  blockEvent (fun s =>
    match s.homeAt pos with
    | some h =>
      if h.settle.isSome then (s.modHome h.tank fun h => { h with settle := none }).clearReceiving h.tank else s
    | none => s) s

/-- UNLOCK of a tank (R95). -/
def execUnlockTank (src tgt tank : Nat) (s : State) : Host.Outcome State Fault Refusal :=
  blockEvent (receiveNamed src tgt (State.takeUnlockTank src tank)) s

/-- LENGTH_TIMER_EXPIRY (R103): a RUNNING window becomes DUE, or is discarded on a faulted gauge. -/
def execLengthTimerExpiry (pos : Nat) (s : State) : Host.Outcome State Fault Refusal :=
  blockEvent (fun s =>
    match s.homeAt pos with
    | some h =>
      if h.recon.window = .running ∧ h.recon.length.isSome then
        if (s.entry h.tank).any fun e => e.flags.gaugeFault then s.discardWindow h.tank
        else s.modRecon h.tank fun r => { r with window := .due, length := none }
      else s
    | none => s) s

end Sys2Proof.Machine
end

