-- ==== Sys2Proof/Machine/AccountCmds.lean ====
section
/-! DEFINITION. The Account Cache's commands (06): SEEK, ACCOUNT, SEEK_WINDOW_EXPIRY. -/
namespace Sys2Proof.Machine

/-- Whether an ACCOUNT's record is one the Account Cache takes (R113, R183): it names a machine, its burn average is
present exactly when its burn count is above 0, and its fields are in their ranges. -/
def soundAccount (r : AccountRec) : Bool :=
  r.tag.unit != 0 && r.burnAvg.isSome == decide (0 < r.burnCount) && decide (r.origin ≤ 31)
    && (r.hoursLast.all fun h => decide (h ≤ Config.maxHours))

/-- What a seek makes of a record (R120). -/
def Seek.offer (r : AccountRec) (station : Nat) (k : Seek) : Seek :=
  match k.candidate with
  | none => { k with candidate := some (r, station) }
  | some c => if supersedes r c.1 then { k with candidate := some (r, station) } else k

namespace State

/-- Whether an ACCOUNT of the same tag, edit number and origin station waits in the transmit queue (R123). -/
def accountWaits (s : State) (r : AccountRec) : Bool :=
  s.link.queue.any fun x =>
    match x.frame.body with
    | .account a => a.tag == r.tag && a.edit == r.edit && a.origin == r.origin
    | _ => false

/-- A SEEK is answered from a held record (R123). -/
def takeSeek (src : Nat) (tag : Tag) (s : State) : State :=
  if tag.unit ≠ 0 ∧ s.trusts src then
    match s.account tag with
    | some r => if s.accountWaits r.acc then s else s.queueFrame ⟨0, .account r.acc⟩
    | none => s
  else s

/-- A record held is adopted, and becomes the most recent (R124). -/
def adopt (s : State) (r : AccountRec) : State := (s.modAccount r.tag fun c => { c with acc := r }).touch r.tag

/-- A taken ACCOUNT (R120, R124). -/
def takeAccount (src : Nat) (r : AccountRec) (s : State) : State :=
  if soundAccount r ∧ s.trusts src then
    match s.seekFor r.tag, s.account r.tag with
    | some _, _ => s.setSeeks (modWhere (·.tag == r.tag) (Seek.offer r src) s.accounts.seeks)
    | none, some c => if supersedes r c.acc then s.adopt r else s
    | none, none => s
  else s

/-- The record a seek inserts at its end (R121). -/
def seekRecord (k : Seek) : AccountRec :=
  match k.candidate with
  | some c => c.1
  | none => freshAccount k.tag k.shift

/-- A seek ends (R121): its record is inserted, its waiting points are decided, oldest first, and it is removed. -/
def endSeek (s : State) (k : Seek) : State :=
  let s1 := s.setCache (insertAccount (seekRecord k) s.accounts.cache)
  let s2 := s1.inOrder k.waiting fun p s =>
    match (s.getPoint p).openReq with
    | some o => s.decideOpen p o
    | none => s
  s2.setSeeks (s2.accounts.seeks.filter fun x => x.tag != k.tag)

end State

/-- SEEK (R123). -/
def execSeek (src tgt : Nat) (tag : Tag) (s : State) : Host.Outcome State Fault Refusal :=
  blockEvent (receive src tgt (State.takeSeek src tag)) s

/-- ACCOUNT (R120, R124). -/
def execAccount (src tgt : Nat) (r : AccountRec) (s : State) : Host.Outcome State Fault Refusal :=
  blockEvent (receive src tgt (State.takeAccount src r)) s

/-- SEEK_WINDOW_EXPIRY (R121). -/
def execSeekWindowExpiry (tag : Tag) (s : State) : Host.Outcome State Fault Refusal :=
  blockEvent (fun s =>
    match s.seekFor tag with
    | some k => s.endSeek k
    | none => s) s

end Sys2Proof.Machine
end

