-- ==== Sys2Proof/Machine/SpillCmds.lean ====
section
/-! DEFINITION. The Spill Monitor's commands (07): SPILL_LINE_SAMPLE, WATER_BOTTOM_SAMPLE, REPEAT_TIMER_EXPIRY, SPILL, ALLCLEAR. -/
namespace Sys2Proof.Machine

/-- Whether a source index lies in the range of its kind (7.1, log 22). -/
def indexInRange (kind : SourceKind) (index : Nat) : Bool :=
  match kind with
  | .sump => decide (1 ≤ index ∧ index ≤ 12)
  | .film => decide (1 ≤ index ∧ index ≤ 12)
  | .pan => decide (1 ≤ index ∧ index ≤ 12)
  | .estop => decide (1 ≤ index ∧ index ≤ 12)
  | .water => decide (1 ≤ index ∧ index ≤ 4)
  | .hose => decide (1 ≤ index ∧ index ≤ 6)
  | .loss => decide (1 ≤ index ∧ index ≤ 16)

namespace State

/-- A sample of a spill line (R136, R137). -/
def sampleLine (s : State) (line : Nat) (high : Bool) : State :=
  match s.lineCfg line, nth1 s.spill.lines line with
  | some c, some x =>
    let x' := filterSample c high x
    let s1 := s.setSpill { s.spill with lines := modNth1 s.spill.lines line fun _ => x' }
    if x'.wet && !x.wet then s1.localTrip c.zone c.kind line else s1
  | _, _ => s

/-! ### A water-bottom line going WET (R137, R93) -/

/-- The quarantine and the shutdown reach a busy point in either order (R137, log 7). -/
def floodPoint (quarantined shut : Bool) (p : PointId) (s : State) : State :=
  if quarantined && shut then
    let c := s.choose
    if c.1 then (c.2.quarantinePoint p).shutPoint p else (c.2.shutPoint p).quarantinePoint p
  else if shut then s.shutPoint p
  else s.quarantinePoint p

/-- A water-bottom source goes WET: QUARANTINED is set if it is not (R93), the zone is tripped (R141), and both reach
the points. Points that are not busy only lock. -/
def floodTank (s : State) (tank pos zone : Nat) : State :=
  let newly := (s.entry tank).any fun e => !e.flags.quarantined
  let leaves := s.zoneClear zone
  let shut : PointId → Bool := fun p => leaves && s.toldOf zone p
  let quar : PointId → Bool := fun p => newly && s.tankOf p == some tank
  let busy : PointId → Bool := fun p => (s.getPoint p).st.busy
  let ending := allPoints.filter fun p => busy p && (shut p || quar p)
  let s1 := (if newly then s.modFlags tank fun f => { f with quarantined := true } else s).markTrip zone .water pos
  let s2 := (s1.leaveQueues ending).inOrder (allPoints.filter fun p => !busy p && shut p) fun p s => s.shutPoint p
  let s3 := s2.forEach ending fun p s => s.floodPoint (quar p) (shut p) p
  (if newly then s3.repeatStock tank else s3).sendSpill zone

/-- A sample of a water-bottom line (R136, R137). -/
def sampleWater (s : State) (pos : Nat) (high : Bool) : State :=
  match s.waterCfg pos, s.homeAt pos with
  | some c, some h =>
    let x' := filterSample c high h.water
    let s1 := s.modHome h.tank fun h => { h with water := x' }
    if x'.wet && !h.water.wet then s1.floodTank h.tank pos c.zone else s1
  | _, _ => s

/-! ### SPILL and ALLCLEAR received -/

/-- A SPILL for a zone the station takes part in (R144). -/
def takeSpill (src zone : Nat) (kind : SourceKind) (index : Nat) (s : State) : State :=
  match s.zoneRec zone with
  | none => s
  | some r =>
    if indexInRange kind index then
      let s1 := s.modZone zone fun r => { r with lastSpill := some src, ageMs := 0 }
      if r.st = .clear then
        ((s1.modZone zone fun r => { r with st := .echoed }).setBeacon).actTold zone fun p s => s.shutPoint p
      else s1
    else s

/-- An ALLCLEAR for a zone the station takes part in (R145, table). -/
def takeAllclear (zone : Nat) (s : State) : State :=
  match s.zoneRec zone with
  | none => s
  | some r =>
    match r.st with
    | .clear => s
    | .echoed => s.clearZone zone
    | .tripped =>
      match (s.localSources zone).find? (·.wet) with
      | none => s.clearZone zone
      | some w => (s.modZone zone fun r => { r with trip := some (w.kind, w.index) }).sendSpill zone

end State

/-- SPILL_LINE_SAMPLE (R136). -/
def execSpillLineSample (line : Nat) (high : Bool) (s : State) : Host.Outcome State Fault Refusal :=
  blockEvent (fun s => s.sampleLine line high) s

/-- WATER_BOTTOM_SAMPLE (R136, R137). -/
def execWaterBottomSample (pos : Nat) (high : Bool) (s : State) : Host.Outcome State Fault Refusal :=
  blockEvent (fun s => s.sampleWater pos high) s

/-- REPEAT_TIMER_EXPIRY (R143): the SPILL is repeated and the timer started again. -/
def execRepeatTimerExpiry (zone : Nat) (s : State) : Host.Outcome State Fault Refusal :=
  blockEvent (fun s =>
    match s.zoneRec zone with
    | some r => if r.rpt.isSome then s.sendSpill zone else s
    | none => s) s

/-- SPILL (R144): taken from any station. -/
def execSpill (src tgt zone : Nat) (kind : SourceKind) (index : Nat) (s : State) : Host.Outcome State Fault Refusal :=
  blockEvent (receive src tgt (State.takeSpill src zone kind index)) s

/-- ALLCLEAR (R145): taken with target 0 or the station's own number. -/
def execAllclear (src tgt zone : Nat) (s : State) : Host.Outcome State Fault Refusal :=
  blockEvent (receive src tgt (State.takeAllclear zone)) s

end Sys2Proof.Machine
end

