-- ==== Sys2Proof/Machine/LogCmds.lean ====
section
/-! DEFINITION. The Delivery Log's commands (08): COLLECT and CONFIRM. -/
namespace Sys2Proof.Machine

/-- Whether a CONFIRM of number `n` marks a held record (R162). -/
def confirms (next h n number : Nat) : Bool :=
  n != 0 &&
    match logPlace next h n with
    | .newer => true
    | .held => decide (logAge next n ≤ logAge next number)
    | .older => false

namespace State

/-- A collection in hand is replaced: its waiting BATCH is withdrawn, and it is removed (R161). -/
def dropCollection (s : State) : State :=
  match s.log.collection with
  | none => s
  | some _ => ((s.setCollection none).withdraw fun x => x.ofCollection).handMaybe

/-- A COLLECT (R158). A count of 0 or above 16 is ignored. -/
def takeCollect (src first count : Nat) (s : State) : State :=
  if 1 ≤ count ∧ count ≤ 16 then
    let s1 := s.dropCollection
    match s1.log.records.head? with
    | none => s1.queueFrame ⟨src, .batch 1 true 0 s1.log.uncollected none⟩
    | some oldest =>
      let start : Nat → Collection := fun n => ⟨src, n, count, 1, false⟩
      if first = 0 then (s1.setCollection (some (start oldest.entry.number))).advanceCollection
      else
        match logPlace s1.log.next s1.log.records.length first with
        | .newer => s1.queueFrame ⟨src, .batch 1 true s1.newestLog s1.log.uncollected none⟩
        | .held => (s1.setCollection (some (start first))).advanceCollection
        | .older => (s1.setCollection (some (start oldest.entry.number))).advanceCollection
  else s

/-- A CONFIRM (R162): records are marked, the count is set, and LOG_PRESSING follows. -/
def takeConfirm (number : Nat) (s : State) : State :=
  let l := s.log
  let recs := l.records.map fun r =>
    if confirms l.next l.records.length number r.entry.number then { r with collected := true } else r
  (s.setLog { l with records := recs, uncollected := (recs.filter fun r => !r.collected).length }).setPressing

end State

/-- COLLECT (R158, R161). -/
def execCollect (src tgt first count : Nat) (s : State) : Host.Outcome State Fault Refusal :=
  blockEvent (receiveNamed src tgt (State.takeCollect src first count)) s

/-- CONFIRM (R162). -/
def execConfirm (src tgt number : Nat) (s : State) : Host.Outcome State Fault Refusal :=
  blockEvent (receiveNamed src tgt (State.takeConfirm number)) s

end Sys2Proof.Machine
end

