-- ==== Sys2Proof/Machine/LinkCmds.lean ====
section
/-! DEFINITION. The Link Controller's own commands (09): PRESENCE, PRESENCE_TIMER_EXPIRY, PEER_ABSENCE, and the attempts of the transmit queue: ATTEMPT_START, FRAME_SENT, ATTEMPT_BROKEN. -/
namespace Sys2Proof.Machine

/-- The baselines without a peer's (R82). -/
def BookEntry.forget (station : Nat) (e : BookEntry) : BookEntry :=
  { e with baselines := e.baselines.filter fun b => b.1 != station }

/-- Whether an entry becomes STALE at its home station's restart (R82). -/
def BookEntry.orphaned (station : Nat) (e : BookEntry) : Bool := e.cond == .current && e.home == station

/-- A CURRENT entry of a restarted home station (R82). -/
def BookEntry.staleIf (station : Nat) (e : BookEntry) : BookEntry :=
  if e.orphaned station then { e with cond := .stale, staleTimer := none } else e

namespace State

/-! ### Peers (R168, R169) -/

/-- A peer has started again (R82): its baselines go, and the CURRENT entries it is home to become STALE and are tested,
the tanks in a free order (log 6). -/
def peerRestarted (s : State) (station : Nat) : State :=
  let stale := (s.book.filter (BookEntry.orphaned station)).map (·.tank)
  let s1 := s.setBook (s.book.map fun e => (e.forget station).staleIf station)
  s1.forEach (stale.filter fun t => !(s1.reserveFailing t).isEmpty) fun t s => s.reserveSweep t

/-- Whether a PRESENCE's uptime shows a restart of its sender (R168, step 1). -/
def uptimeFell (s : State) (station uptime : Nat) : Bool :=
  (s.peer station).any fun e => e.uptime.any fun u => decide (uptime < u)

/-- What a PRESENCE that is taken does (R168). -/
def updatePeer (src : Nat) (b : PresenceBody) (s : State) : State :=
  let differs := b.fingerprint != s.loader.fingerprint
  let newly := differs && (s.peer src).any fun e => !e.disagreeing
  let s1 := if s.uptimeFell src b.uptime then s.peerRestarted src else s
  let s2 := s1.setPresence (modWhere (·.station == src)
    (fun e => { e with uptime := some b.uptime, fingerprint := some b.fingerprint, disagreeing := differs })
    s1.link.presence)
  if newly then s2.expirePeer src else s2

/-- A PRESENCE updates its source's entry (R168); one with an uncollected count above 256 is not taken (R183, log 22). -/
def takePresence (src : Nat) (b : PresenceBody) (s : State) : State :=
  if b.uncollected ≤ Config.logRecords then s.updatePeer src b else s

/-- An entry whose age has reached 15 s is marked absent (R169). -/
def markAbsent (s : State) (station : Nat) : State :=
  s.setPresence (modWhere (·.station == station) (fun e => { e with absent := true }) s.link.presence)

/-- A PRESENCE of the station is queued (R170). -/
def queuePresence (s : State) : State := s.queueFrame ⟨0, .presence s.presenceBody⟩

/-! ### Attempts (R165, R172, R173) -/

/-- The slot that stands first: the oldest of the lowest class number present (R172). -/
def firstSlot (s : State) : Option Slot :=
  s.link.queue.find? fun x => s.link.queue.all fun y => decide (x.cls ≤ y.cls)

end State

/-- The wait of a class, in units of 0.01 ms (R172, table). -/
def classWait : Nat → Nat
  | 0 => 20
  | 1 => 60
  | 2 => 100
  | _ => 140

/-- The idle time a slot waits for, in units of 0.01 ms: its class's wait, the station's slot, the back-off (R172). -/
def slotWait (own : Nat) (x : Slot) : Nat := classWait x.cls + own + 10 * min x.attempts 8

/-- The queue with the slot that stands first marked on the line, under a sequence number. -/
def markOnLine (seq : Byte) (c : Nat) : List Slot → List Slot
  | [] => []
  | x :: rest => if x.cls = c then { x with onLine := true, seq := some seq } :: rest else x :: markOnLine seq c rest

/-- A slot whose attempt has ended takes its pending content (R172). -/
def Slot.takePending (x : Slot) : Slot :=
  match x.pending with
  | some f => { x with frame := f, attempts := 0, onLine := false, pending := none, seq := none }
  | none => { x with onLine := false }

/-- A slot after a broken attempt (R172): attempts count up, and pending content, where there is any, becomes its
content with attempts 0. -/
def Slot.afterBreak (x : Slot) : Slot := { x with attempts := satAdd 255 x.attempts 1 }.takePending

/-- Whether a slot leaves after a broken attempt (R173). -/
def Slot.leavesBroken (x : Slot) : Bool :=
  x.withdrawn || (x.cls != 0 && x.pending.isNone && decide (Config.maxAttempts ≤ satAdd 255 x.attempts 1))

/-- Whether a slot leaves after its frame was sent (R172, R173). -/
def Slot.leavesSent (x : Slot) : Bool := x.withdrawn || x.pending.isNone

namespace State

/-- An attempt starts on the slot that stands first, if the line has been idle for its wait (R172). The frame takes its
sequence number at its first attempt (R165). -/
def startAttempt (s : State) (idle : Nat) : State :=
  match s.firstSlot, s.link.attempt with
  | some x, none =>
    if s.own ≠ 0 ∧ slotWait s.own x ≤ idle then
      let seq := x.seq.getD s.link.seq
      s.setLink { s.link with
        seq := if x.seq.isSome then s.link.seq else s.link.seq + 1
        queue := markOnLine seq x.cls s.link.queue
        attempt := some ⟨frameBytes s.own seq x.frame, false⟩ }
    else s
  | _, _ => s

/-- The attempt in progress ends. An attempt whose slot was cleared by a RESTART has no further effect (R176); else the
slot leaves or stays as its end gives. -/
def endAttempt (s : State) (leaves : Slot → Bool) (stay : Slot → Slot) : State :=
  match s.link.attempt with
  | none => s
  | some a =>
    let s1 := s.setLink { s.link with attempt := none }
    match s.link.queue.find? (·.onLine), a.orphan with
    | some x, false =>
      if leaves x then (s1.setQueue (s1.link.queue.eraseP (·.onLine))).slotLeaves x
      else s1.setQueue (modWhere (·.onLine) stay s1.link.queue)
    | _, _ => s1

end State

/-! ### The commands -/

/-- PRESENCE (R168). -/
def execPresence (src tgt : Nat) (b : PresenceBody) (s : State) : Host.Outcome State Fault Refusal :=
  blockEvent (receive src tgt (State.takePresence src b)) s

/-- PRESENCE_TIMER_EXPIRY (R170): a PRESENCE is queued, and the timer is started again. -/
def execPresenceTimerExpiry (s : State) : Host.Outcome State Fault Refusal :=
  blockEvent (fun s =>
    if s.link.presenceTimer.isSome then
      (s.setLink { s.link with presenceTimer := some Config.presenceMs }).queuePresence
    else s) s

/-- PEER_ABSENCE (R169): an entry that is not absent and whose age has reached 15 s is marked, and the mark is handed to
the Flow Allotter (R61); with a younger entry the mark does not come (log 29). -/
def execPeerAbsence (station : Nat) (s : State) : Host.Outcome State Fault Refusal :=
  blockEvent (fun s =>
    match s.peer station with
    | some e =>
      if !e.absent && decide (Config.absenceMs ≤ e.ageMs) then (s.markAbsent station).expirePeer station else s
    | none => s) s

/-- ATTEMPT_START (R172). -/
def execAttemptStart (idle : Nat) (s : State) : Host.Outcome State Fault Refusal :=
  blockEvent (fun s => s.startAttempt idle) s

/-- FRAME_SENT (R172): the whole frame was read back as sent. -/
def execFrameSent (s : State) : Host.Outcome State Fault Refusal :=
  blockEvent (fun s => s.endAttempt Slot.leavesSent Slot.takePending) s

/-- ATTEMPT_BROKEN (R172, R173): a difference was read back. -/
def execAttemptBroken (s : State) : Host.Outcome State Fault Refusal :=
  blockEvent (fun s => s.endAttempt Slot.leavesBroken Slot.afterBreak) s

end Sys2Proof.Machine
end

