-- ==== Sys2Proof/Machine/Asks.lean ====
section
/-! DEFINITION. The ASKs (R175): POINT, TANK, ACCOUNT, ZONE, RECON, PEERS. -/
namespace Sys2Proof.Machine

namespace State

/-- ASK POINT (R57): a point not configured is answered NOTHING, but for a station with IMAGE_BAD. -/
def answerPoint (src n : Nat) (s : State) : State :=
  match pointOf n with
  | some p =>
    if (s.zoneOf p).isSome then s.queueFrame (s.pointTell src p) else s.queueFrame (nothingTell src (.point n))
  | none => s.queueFrame (nothingTell src (.point n))

/-- ASK TANK (R97). -/
def answerTank (src n : Nat) (s : State) : State :=
  match s.entry n with
  | some e => s.tellTank src e
  | none => s.queueFrame (nothingTell src (.tank n))

/-- ASK ACCOUNT (R132): one TELL. -/
def answerAccount (src : Nat) (tag : Tag) (s : State) : State :=
  s.queueFrame (tell src (.account tag) 1 true (s.accountAnswer tag))

/-- ASK ZONE (R148): the sticky flags reported are cleared (R149). -/
def answerZone (src z : Nat) (s : State) : State :=
  match s.zoneRec z with
  | some r => (s.clearSticky z).queueFrames (numberParts src (.zone z) 1 (s.zoneAnswers r))
  | none => s.queueFrame (nothingTell src (.zone z))

/-- ASK RECON (R110). -/
def answerRecon (src n : Nat) (s : State) : State :=
  match s.homeOf n, s.tankCfg n with
  | some h, some c => s.queueFrames (numberParts src (.recon n) 1 (s.reconAnswers h c))
  | _, _ => s.queueFrame (nothingTell src (.recon n))

/-- ASK PEERS (R75): the parts are numbered tank by tank. -/
def answerPeers (src : Nat) (s : State) : State :=
  if s.allot.isEmpty then s.queueFrame (nothingTell src .peers)
  else
    s.queueFrames (s.allot.flatMap fun t =>
      match s.tankCfg t.tank with
      | some c => numberParts src .peers 1 (s.peersAnswers t c)
      | none => [])

end State

/-- ASK POINT (R57). -/
def execAskPoint (src tgt point : Nat) (s : State) : Host.Outcome State Fault Refusal :=
  blockEvent (receiveNamed src tgt (State.answerPoint src point)) s

/-- ASK TANK (R97). -/
def execAskTank (src tgt tank : Nat) (s : State) : Host.Outcome State Fault Refusal :=
  blockEvent (receiveNamed src tgt (State.answerTank src tank)) s

/-- ASK ACCOUNT (R132). -/
def execAskAccount (src tgt : Nat) (tag : Tag) (s : State) : Host.Outcome State Fault Refusal :=
  blockEvent (receiveNamed src tgt (State.answerAccount src tag)) s

/-- ASK ZONE (R148). -/
def execAskZone (src tgt zone : Nat) (s : State) : Host.Outcome State Fault Refusal :=
  blockEvent (receiveNamed src tgt (State.answerZone src zone)) s

/-- ASK RECON (R110). -/
def execAskRecon (src tgt tank : Nat) (s : State) : Host.Outcome State Fault Refusal :=
  blockEvent (receiveNamed src tgt (State.answerRecon src tank)) s

/-- ASK PEERS (R75). -/
def execAskPeers (src tgt : Nat) (s : State) : Host.Outcome State Fault Refusal :=
  blockEvent (receiveNamed src tgt (State.answerPeers src)) s

end Sys2Proof.Machine
end

