-- ==== Sys2Proof/Machine/Image.lean ====
section
/-! DEFINITION. The configuration image: its framing, its layout and the range check (R178, R186). -/
namespace Sys2Proof.Machine

/-- An unsigned field of `w` bytes at offset `o`. -/
def readAt (m : List Byte) (o w : Nat) : Nat := beNat ((m.drop o).take w)

/-- Whether a value lies in a..b. -/
def within (a b n : Nat) : Bool := decide (a ≤ n) && decide (n ≤ b)

/-- A product entry of 3 bytes. -/
def readProduct (m : List Byte) (o : Nat) : Option ProductCfg :=
  match groupOf (readAt m o 1) with
  | some g => let a := readAt m (o + 1) 2; if a ≤ 2000 then some ⟨g, a⟩ else none
  | none => none

/-- A class entry of 9 bytes. -/
def readClass (m : List Byte) (o : Nat) : Option ClassCfg :=
  let p := readAt m o 1
  if p ≤ 3 then some ⟨p, readAt m (o + 1) 4, readAt m (o + 5) 4⟩ else none

/-- A tank entry of 33 bytes, with the order of its reserve floors (R178). -/
def readTank (m : List Byte) (o : Nat) : Option TankCfg :=
  let t : TankCfg :=
    { product := readAt m o 1
      home := readAt m (o + 1) 1
      capacity := readAt m (o + 2) 4
      floor0 := readAt m (o + 6) 4
      floor1 := readAt m (o + 10) 4
      floor2 := readAt m (o + 14) 4
      floor3 := readAt m (o + 18) 4
      header := readAt m (o + 22) 2
      zone := readAt m (o + 24) 1
      windowMin := readAt m (o + 25) 1
      tolMin := readAt m (o + 26) 4
      tolPpt := readAt m (o + 30) 1
      lossOn := readAt m (o + 31) 1
      lossOff := readAt m (o + 32) 1 }
  let ok := within 1 15 t.product && within 1 31 t.home && within 1 max32 t.capacity
    && decide (t.floor1 ≤ t.floor0) && decide (t.floor2 ≤ t.floor1) && decide (t.floor3 ≤ t.floor2)
    && decide (t.floor0 ≤ t.capacity) && within 100 6000 t.header && within 0 7 t.zone
    && within 5 60 t.windowMin && within 1 50 t.tolPpt && within 1 15 t.lossOn && within 1 15 t.lossOff
  if ok then some t else none

/-- A filter of 4 bytes. -/
def readFilter (m : List Byte) (o : Nat) : Option Filter :=
  match boolOf (readAt m o 1) with
  | some e =>
    let f : Filter :=
      { enabled := e
        clsPattern := readAt m (o + 1) 1
        clsMask := readAt m (o + 2) 1
        fleetPattern := readAt m (o + 3) 1 / 16
        fleetMask := readAt m (o + 3) 1 % 16 }
    if within 0 63 f.clsPattern && within 0 63 f.clsMask then some f else none
  | none => none

/-- The ranges of a configured point's fields (10.2). -/
def PointCfg.inRange (c : PointCfg) : Bool :=
  within 1 15 c.product && within 1 16 c.tank && within 0 7 c.zone && within 10 2000 c.k && within 9500 10500 c.mf
    && within 20 1200 c.maxRate && within 10 c.maxRate c.floorRate && within 5 500 c.ramp
    && within 0 10000 c.taperVol && within 5 c.maxRate c.taperRate && within 1 20000 c.maxRun
    && goodTemp c.forced && within 1 30 c.prime && within 0 60 c.guard && within 10 300 c.noLift
    && within 10 600 c.hold && within 0 120 c.linger && within 5 60 c.stall && within 5 100 c.mismatch

/-- A point entry of 41 bytes: `some none` for a point not configured, whose other fields are not checked (R186). -/
def readPoint (m : List Byte) (o : Nat) : Option (Option PointCfg) :=
  match boolOf (readAt m o 1) with
  | some false => some none
  | none => none
  | some true =>
    match tempModeOf (readAt m (o + 20) 1), readFilter m (o + 32), readFilter m (o + 36), combineOf (readAt m (o + 40) 1) with
    | some mode, some f1, some f2, some l =>
      let c : PointCfg :=
        { product := readAt m (o + 1) 1
          tank := readAt m (o + 2) 1
          zone := readAt m (o + 3) 1
          k := readAt m (o + 4) 2
          mf := readAt m (o + 6) 2
          maxRate := readAt m (o + 8) 2
          floorRate := readAt m (o + 10) 2
          ramp := readAt m (o + 12) 2
          taperVol := readAt m (o + 14) 2
          taperRate := readAt m (o + 16) 2
          maxRun := readAt m (o + 18) 2
          mode := mode
          forced := signedOf 2 (readAt m (o + 21) 2)
          prime := readAt m (o + 23) 1
          guard := readAt m (o + 24) 1
          noLift := readAt m (o + 25) 2
          hold := readAt m (o + 27) 2
          linger := readAt m (o + 29) 1
          stall := readAt m (o + 30) 1
          mismatch := readAt m (o + 31) 1
          filter1 := f1
          filter2 := f2
          logic := l }
      if c.inRange then some (some c) else none
    | _, _, _, _ => none

/-- Levels and volumes both strictly increasing (10.2). -/
def rising : List (Nat × Nat) → Bool
  | a :: b :: rest => decide (a.1 < b.1) && decide (a.2 < b.2) && rising (b :: rest)
  | _ => true

/-- A home-tank entry of 149 bytes. -/
def readHome (m : List Byte) (o : Nat) : Option HomeCfg :=
  let n := readAt m o 1
  let h : HomeCfg :=
    { strap := (List.range n).map fun i => (readAt m (o + 1 + 6 * i) 2, readAt m (o + 3 + 6 * i) 4)
      jump := readAt m (o + 145) 2
      settle := readAt m (o + 147) 2 }
  let ok := within 2 24 n && h.strap.all (fun p => decide (p.1 ≤ 20000)) && rising h.strap
    && within 10 1000 h.jump && within 60 3600 h.settle
  if ok then some h else none

/-- The zone, polarity and count fields of a line of the given kind. -/
def readLineFields (m : List Byte) (kind : SourceKind) (zo po co : Nat) : Option LineCfg :=
  match polarityOf (readAt m po 1) with
  | some p =>
    let c : LineCfg := ⟨kind, readAt m zo 1, p, readAt m co 1 / 16, readAt m co 1 % 16⟩
    if within 0 7 c.zone && within 1 15 c.on && within 1 15 c.off then some c else none
  | none => none

/-- A spill-line entry of 5 bytes: `some none` for a line marked unused. -/
def readLine (m : List Byte) (o : Nat) : Option (Option LineCfg) :=
  match boolOf (readAt m o 1) with
  | some false => some none
  | none => none
  | some true =>
    match sourceKindOf (readAt m (o + 1) 1) with
    | some k =>
      if k.code ≤ 3 then (readLineFields m k (o + 2) (o + 3) (o + 4)).map some else none
    | none => none

/-- A water-bottom entry of 3 bytes. -/
def readWater (m : List Byte) (o : Nat) : Option LineCfg := readLineFields m .water o (o + 1) (o + 2)

/-- `n` entries of `w` bytes from offset `o`; none if one of them is out of range. -/
def readMany {α : Type} (f : List Byte → Nat → Option α) (m : List Byte) (o w : Nat) : Nat → Option (List α)
  | 0 => some []
  | n + 1 =>
    match f m o, readMany f m (o + w) w n with
    | some a, some rest => some (a :: rest)
    | _, _ => none

/-- The tanks in the book of a station: those its configured points draw from and its home tanks, in rising order
(R77). Home tanks are those of the station section's number (log 16). -/
def homeTanks (tanks : List TankCfg) (station : Nat) : List Nat :=
  (List.range 16).filterMap fun i =>
    match tanks[i]? with
    | some t => if t.home = station then some (i + 1) else none
    | none => none

def PerPoint.toList {α : Type} (v : PerPoint α) : List α := [v.p1, v.p2, v.p3, v.p4, v.p5, v.p6]

def drawnTanks (points : PerPoint (Option PointCfg)) : List Nat :=
  points.toList.filterMap fun c => c.map (·.tank)

def Image.homeTanks (c : Image) : List Nat := Machine.homeTanks c.tanks c.station

def Image.bookTanks (c : Image) : List Nat :=
  ((List.range 17).filter fun t => decide (t ∈ c.homeTanks) || decide (t ∈ drawnTanks c.points))

/-- A home-tank position without a home tank may hold any value (R186). -/
def readHomes (m : List Byte) (o used : Nat) : Nat → Option (List (Option HomeCfg))
  | 0 => some []
  | n + 1 =>
    match readHomes m (o + 149) (used - 1) n with
    | some rest =>
      if 0 < used then
        match readHome m o with
        | some h => some (some h :: rest)
        | none => none
      else some (none :: rest)
    | none => none

/-- Each configured point's product is its tank's, the book's and the home tanks' numbers are within their bounds
(R77, R178). -/
def Image.consistent (c : Image) : Bool :=
  (c.points.toList.all fun p =>
      match p with
      | some p => ((nth1 c.tanks p.tank).map (·.product)) == some p.product
      | none => true)
    && decide (c.bookTanks.length ≤ 8) && decide (c.homeTanks.length ≤ 4)

/-- The bay section at offset `o` (R186). -/
def readBay (m : List Byte) (o : Nat) : Option (List ProductCfg × List ClassCfg × List TankCfg) :=
  match readMany readProduct m o 3 15, readMany readClass m (o + 45) 9 64, readMany readTank m (o + 621) 33 16 with
  | some a, some b, some c => some (a, b, c)
  | _, _, _ => none

/-- The points of the station section at offset `o`. -/
def readPoints (m : List Byte) (o : Nat) : Option (PerPoint (Option PointCfg)) :=
  match readPoint m o, readPoint m (o + 41), readPoint m (o + 82), readPoint m (o + 123), readPoint m (o + 164),
    readPoint m (o + 205) with
  | some a, some b, some c, some d, some e, some f => some ⟨a, b, c, d, e, f⟩
  | _, _, _, _, _, _ => none

/-- The image with every field in its range, the bay section at 4 and the station section at 1,153; none if a field
is out of range (R178, R186). -/
def readImage (m : List Byte) : Option Image :=
  let o := 1153
  match readBay m 4, readPoints m (o + 1) with
  | some (products, classes, tanks), some points =>
    let station := readAt m o 1
    match readHomes m (o + 247) (homeTanks tanks station).length 4,
      readMany readLine m (o + 843) 5 12, readMany readWater m (o + 903) 3 4 with
    | some homes, some lines, some waters =>
      let c : Image :=
        { products := products
          classes := classes
          tanks := tanks
          station := station
          points := points
          homes := homes
          lines := lines
          waters := waters
          beaconMask := BitVec.ofNat 8 (readAt m (o + 915) 1)
          threshold := readAt m (o + 916) 2 }
      if within 1 31 station && within 1 256 c.threshold && c.consistent then some c else none
    | _, _, _ => none
  | _, _ => none

/-- What the read and check of the image gives: the image status with the image, and the bay fingerprint (R178).
`mem` is what the configuration memory answered, from its first byte; bytes beyond it did not answer (log 27). -/
def checkImage (mem : Option (List Byte)) (strap : Nat) : Option Image × Word32 :=
  match mem with
  | none => (none, 0)
  | some m =>
    let l := readAt m 0 2
    let b := readAt m 2 2
    let placed := decide (4 + b ≤ Config.imageBytes) && decide (4 + b ≤ m.length)
    let fingerprint := if placed then crc32 ((m.drop 4).take b) else 0
    let framed := decide (l ≤ Config.imageBytes) && decide (4 + b + 4 ≤ l) && decide (l ≤ m.length)
    let sized := decide (b = 1149) && decide (l = 2075)
    if framed && sized && crc32 (m.take (l - 4)) == BitVec.ofNat 32 (readAt m (l - 4) 4) then
      match readImage m with
      | some c => if strap = 0 ∨ strap = c.station then (some c, fingerprint) else (none, fingerprint)
      | none => (none, fingerprint)
    else (none, fingerprint)

end Sys2Proof.Machine
end

