-- ==== Sys2Proof/Machine/Startup.lean ====
section
/-! DEFINITION. The Start-up Loader's commands (10): RESET_LINE_ASSERTED, POWER_ON, IMAGE_CHECK_DONE, LISTEN_TIMER_EXPIRY, RESTART; and FRAME_HEARD (R166). -/
namespace Sys2Proof.Machine

/-! ### Values at the end of LOADING (R19, R22, R59, R99, R100, R142) -/

/-- A Meter Channel's values after power-on (R12, R18, R19). -/
def channelStart (c : Image) (p : PointCfg) : Channel :=
  match p.mode with
  | .auto => { Channel.reset with sampleTimer := some Config.sampleMs }
  | .forced =>
    { Channel.reset with
      lastTemp := p.forced
      goodSeen := true
      vcf := vcfOf (((nth1 c.products p.product).map (·.alpha)).getD 0) p.forced }

/-- A configured point's values after power-on, at a station with strap reading `straps` (R22). -/
def pointStart (straps : Nat) (p : PointCfg) : Point :=
  let x := { Point.reset with guard := startTimer (secs p.guard) }
  if straps = 0 then { x with st := .locked, lockCause := .straps, permanent := .straps } else x

/-- Each of the six points of a station with IMAGE_BAD (R22, R179). -/
def pointDamaged : Point := { Point.reset with st := .locked, lockCause := .image, permanent := .image }

def PerPoint.map {α β : Type} (f : α → β) (v : PerPoint α) : PerPoint β := ⟨f v.p1, f v.p2, f v.p3, f v.p4, f v.p5, f v.p6⟩

def tankAllotStart (tank : Nat) : TankAllot where
  tank := tank
  peers := []
  admitted := []
  queue := []
  own := 0
  announced := 0
  announcedDraw := 0
  timer := none

/-- A book entry after power-on (R99), before a fill line found active sets RECEIVING (R92). -/
def entryStart (c : Image) (tank : Nat) : BookEntry where
  tank := tank
  product := ((nth1 c.tanks tank).map (·.product)).getD 0
  home := ((nth1 c.tanks tank).map (·.home)).getD 0
  cond := .unknown
  stockAtMark := 0
  mark := 0
  drawn := 0
  flags :=
    { quarantined := false
      receiving := false
      gaugeFault := false
      gaugeJump := false
      overStrap := false
      loss := false }
  verdict := .none
  variance := 0
  staleTimer := none
  baselines := []
  ownDraw := 0

def reconStart : Recon where
  window := .noWindow
  number := 0
  next := 0
  g0 := 0
  m := 0
  start := 0
  length := none
  bad := 0
  ok := 0
  ring := []

def gaugeStart : Gauge where
  held := 0
  rejected := 0
  lastLevel := none
  lastVolume := 0
  lastStock := 0
  lastTemp := 150
  tempHeld := false
  timer := some Config.gaugeFirstMs

def homeStart (fill : Bool) (tank : Nat) : HomeTank where
  tank := tank
  gauge := gaugeStart
  fillActive := fill
  settle := none
  recon := reconStart
  lossWet := false
  lossSticky := false
  water := { wet := false, count := 0, sticky := false }

def zoneStart (z : Nat) : ZoneRec where
  zone := z
  st := .clear
  trip := none
  rpt := none
  lastSpill := none
  ageMs := 0

/-- The zones a station takes part in: zone 0, and those of its configured points, home tanks and filtered lines (R142). -/
def Image.zones (c : Image) : List Nat :=
  let named : List Nat :=
    0 :: (c.points.toList.filterMap fun p => p.map (·.zone))
      ++ (c.homeTanks.filterMap fun t => (nth1 c.tanks t).map (·.zone))
      ++ (c.lines.filterMap fun l => l.map (·.zone))
      ++ ((c.waters.take c.homeTanks.length).map (·.zone))
  (List.range 8).filter fun z => named.contains z

/-- Whether the fill line of a tank is active at the first look (R92). -/
def fillOf (homes : List Nat) (fill : List Bool) (tank : Nat) : Bool :=
  (List.zip homes fill).any fun e => e.1 == tank && e.2

namespace State

/-- The blocks' values with a sound image in force. -/
def startWith (s : State) (c : Image) (fill : List Bool) : State :=
  { s with
    chans := c.points.map fun p =>
      match p with
      | some p => channelStart c p
      | none => Channel.reset
    points := c.points.map fun p =>
      match p with
      | some p => pointStart s.own p
      | none => Point.reset
    allot := c.bookTanks.map tankAllotStart
    book := c.bookTanks.map (entryStart c)
    homes := c.homeTanks.map fun t => homeStart (fillOf c.homeTanks fill t) t
    spill := { State.reset.spill with zones := c.zones.map zoneStart } }

/-- The blocks' values with IMAGE_BAD (R179). -/
def startDamaged (s : State) : State :=
  { s with
    points := .all pointDamaged
    spill := { State.reset.spill with zones := [zoneStart 0] } }

/-- The state with the blocks as power-on leaves them; the queue, the free choices and the loader are kept. -/
def blank (s : State) : State := { State.reset with pending := s.pending, free := s.free, loader := s.loader }

/-- A fill line found active at the first look sets RECEIVING at once, with its repeat STOCK (R91, R92, log 38). -/
def firstLook (s : State) : State :=
  s.inOrder ((s.homes.filter (·.fillActive)).map (·.tank)) fun t s => s.setReceiving t

/-- The end of LOADING (R177, R178): the blocks take their values, the fill lines are looked at, a PRESENCE is queued. -/
def endLoading (mem : Option (List Byte)) (fill : List Bool) (s : State) : State :=
  let r := checkImage mem s.own
  let s1 := s.blank.setLoader { s.loader with
    image := r.1
    imageOk := r.1.isSome
    fingerprint := r.2
    phase := .listening
    listen := some Config.listenMs
    restartList := [] }
  let s2 := match r.1 with
    | some c => (s1.startWith c fill).firstLook
    | none => s1.startDamaged
  (s2.setLink { s2.link with presenceTimer := some Config.presenceMs }).queuePresence

/-! ### RESTART (R176, R182) -/

/-- What a RESTART does to a point (R58, table). -/
def restartPoint (s : State) (p : PointId) : State :=
  let rest : State → State := fun s =>
    let s1 := (s.pumpOff p).modPoint p fun x => { x with linger := none }
    if s1.lockCauseOf p = .none then s1.modPoint p fun x => { x with st := .idle } else s1.lock p
  match (s.getPoint p).st with
  | .seeking => rest (s.denyPending p .starting)
  | .linger => rest s
  | .idle => s
  | .locked => s
  | .priming => s.endRun p .restart
  | .ready => s.endRun p .restart
  | .queued => s.endRun p .restart
  | .flowing => s.endRun p .restart
  | .taper => s.endRun p .restart
  | .held => s.endRun p .restart

end State

/-- The CLOSEs formed, each with the ACCOUNT formed before it, under its point's number. -/
def closePairs : List Frame → List (Nat × List Frame)
  | [] => []
  | [a] =>
    match a.body with
    | .close c => [(c.point, [a])]
    | _ => []
  | a :: b :: rest =>
    match a.body, b.body with
    | .account _, .close c => (c.point, [a, b]) :: closePairs rest
    | .close c, _ => (c.point, [a]) :: closePairs (b :: rest)
    | _, _ => closePairs (b :: rest)

/-- The point of a DENY. -/
def denyPoint (f : Frame) : Option Nat :=
  match f.body with
  | .deny p _ _ => some p
  | _ => none

/-- The tank of a DRAW. -/
def drawTank (f : Frame) : Option Nat :=
  match f.body with
  | .draw t _ _ _ => some t
  | _ => none

/-- A STOCK or a PRESENCE: they are formed in their order. -/
def isLate (f : Frame) : Bool :=
  match f.body with
  | .stock .. => true
  | .presence _ => true
  | _ => false

/-- The frames formed at a RESTART in the order of R182, step 5. Of a tank's DRAWs the newest is listed (log 26). -/
def restartOrder (l : List Frame) : List Frame :=
  ([1, 2, 3, 4, 5, 6].flatMap fun p => ((closePairs l).filter fun e => e.1 == p).flatMap (·.2))
    ++ ([1, 2, 3, 4, 5, 6].flatMap fun p => l.filter fun f => denyPoint f == some p)
    ++ ((List.range 17).flatMap fun t => ((l.filter fun f => drawTank f == some t).getLast?).toList)
    ++ l.filter isLate

namespace State

/-- R182, step 3, and the emptying of an older list: the queue keeps its class 0 slots, and the collection in hand ends.
A slot on the line that is cleared finishes its attempt without further effect (R176). -/
def clearQueue (s : State) : State :=
  let orphan := s.link.queue.any fun x => x.onLine && x.cls != 0
  (s.setLink { s.link with
    queue := s.link.queue.filter fun x => x.cls == 0
    attempt := s.link.attempt.map fun a => { a with orphan := a.orphan || orphan } }).setCollection none

/-- Hand as many frames of the restart list as the queue has free slots (R182). -/
def handLoop : Nat → State → State
  | 0, s => s
  | n + 1, s =>
    if s.link.queue.length < Config.queueSlots ∧ s.loader.restartList ≠ [] then handLoop n s.handOne else s

/-- An accepted RESTART (R182). The admission queues are emptied first (log 41); each repeat STOCK of step 4 restarts its
tank's staleness timer (R79, R91; log 42). -/
def acceptRestart (s : State) : State :=
  let s0 := (s.setLoader { s.loader with restartList := [] }).setMarks { EventMarks.clear with forming := true }
  let s1 := ((s0.leaveQueues allPoints).inOrder allPoints fun p s => s.restartPoint p).setSeeks []
  let s2 := s1.inOrder (s1.homes.map (·.tank)) fun t s => s.discardWindow t
  let s3 := s2.clearQueue
  let s4 := s3.inOrder (s3.homes.map (·.tank)) fun t s => s.repeatStock t
  let s5 := (s4.setLink { s4.link with presenceTimer := some Config.presenceMs }).queueFrame
    ⟨0, .presence { s4.presenceBody with listen := true }⟩
  let s6 := s5.setLoader { s5.loader with
    restartList := (restartOrder (s5.loader.restartList.map (·.frame))).map fun f => ⟨f, false⟩
    phase := .listening
    listen := some Config.listenMs }
  handLoop Config.queueSlots (s6.setMarks .clear)

/-- A RESTART that carries the bay fingerprint the station holds is accepted (R176). -/
def takeRestart (fingerprint : Word32) (s : State) : State :=
  if fingerprint = s.loader.fingerprint then s.acceptRestart else s

/-! ### A frame heard (R166) -/

/-- A request whose owner ignores target 0. -/
def named (tgt : Nat) (take : State → State) (s : State) : State := if tgt = 0 then s else take s

/-- The block that takes a frame's kind (R166, row 8). -/
def dispatch : Instr → State → State
  | .openRequest src tgt point tag product preset hours shift => named tgt (takeOpen src point tag product preset hours shift)
  | .hold _ tgt point run => named tgt (takeHold point run)
  | .resume _ tgt point run => named tgt (takeResume point run)
  | .cancel _ tgt point run => named tgt (takeCancel point run)
  | .unlockPoint src tgt point => named tgt (takeUnlockPoint src point)
  | .unlockTank src tgt tank => named tgt (takeUnlockTank src tank)
  | .draw src _ tank demand flowing cumulative => takeDraw src tank demand flowing cumulative
  | .stock src _ tank value mark flags verdict variance => takeStock src tank value mark flags verdict variance
  | .seek src _ tag => takeSeek src tag
  | .account src _ r => takeAccount src r
  | .spill src _ zone kind index => takeSpill src zone kind index
  | .allclear _ _ zone => takeAllclear zone
  | .collect src tgt first count => named tgt (takeCollect src first count)
  | .confirm _ tgt number => named tgt (takeConfirm number)
  | .presence src _ body => takePresence src body
  | .askPoint src tgt point => named tgt (answerPoint src point)
  | .askTank src tgt tank => named tgt (answerTank src tank)
  | .askAccount src tgt tag => named tgt (answerAccount src tag)
  | .askZone src tgt zone => named tgt (answerZone src zone)
  | .askRecon src tgt tank => named tgt (answerRecon src tank)
  | .askPeers src tgt => named tgt (answerPeers src)
  | .restart _ tgt fingerprint => named tgt (takeRestart fingerprint)
  | _ => id

/-- The bytes of a frame heard are judged as R166 gives. -/
def hearFrame (bytes : List Byte) (s : State) : State :=
  match parseFrame bytes with
  | none => s
  | some h =>
    receive h.src h.tgt (fun s =>
      match heardCommand h with
      | some c => s.dispatch c
      | none => s) s

end State

/-! ### The commands -/

/-- RESET_LINE_ASSERTED (R177): everything in progress ends, in any phase. -/
def execResetLineAsserted (s : State) : Host.Outcome State Fault Refusal :=
  .next { State.reset with pending := s.pending, free := s.free }

/-- POWER_ON (R177): LOADING begins; the straps are five pins. -/
def execPowerOn (straps : Nat) (s : State) : Host.Outcome State Fault Refusal :=
  .next { State.reset with
    pending := s.pending
    free := s.free
    loader := { State.reset.loader with phase := .loading, strap := straps % 32 } }

/-- IMAGE_CHECK_DONE (R177, R178): it comes in LOADING. -/
def execImageCheckDone (mem : Option (List Byte)) (fill : List Bool) (s : State) : Host.Outcome State Fault Refusal :=
  if s.loader.phase = .loading then event (State.endLoading mem fill) s else .next s

/-- LISTEN_TIMER_EXPIRY (R181). -/
def execListenTimerExpiry (s : State) : Host.Outcome State Fault Refusal :=
  blockEvent (fun s =>
    if s.loader.listen.isSome then s.setLoader { s.loader with phase := .running, listen := none } else s) s

/-- RESTART (R176, R182): target 0 is ignored. -/
def execRestart (src tgt : Nat) (fingerprint : Word32) (s : State) : Host.Outcome State Fault Refusal :=
  blockEvent (receiveNamed src tgt (State.takeRestart fingerprint)) s

/-- FRAME_HEARD (R166, R184). -/
def execFrameHeard (bytes : List Byte) (s : State) : Host.Outcome State Fault Refusal :=
  blockEvent (State.hearFrame bytes) s

end Sys2Proof.Machine
end

