-- ==== Sys2Proof/Machine/Dispatch.lean ====
section
/-! DEFINITION. What each command does: one arm per constructor of Instr. -/
namespace Sys2Proof.Machine

def exec (i : Instr) (s : State) : Host.Outcome State Fault Refusal :=
  match i with
  | .resetLineAsserted => Sys2Proof.Machine.execResetLineAsserted s
  | .powerOn straps => Sys2Proof.Machine.execPowerOn straps s
  | .imageCheckDone mem fill => Sys2Proof.Machine.execImageCheckDone mem fill s
  | .listenTimerExpiry => Sys2Proof.Machine.execListenTimerExpiry s
  | .meterPulse p input => Sys2Proof.Machine.execMeterPulse p input s
  | .temperatureSample p valid value => Sys2Proof.Machine.execTemperatureSample p valid value s
  | .sampleTimerExpiry p => Sys2Proof.Machine.execSampleTimerExpiry p s
  | .rateUpdate p => Sys2Proof.Machine.execRateUpdate p s
  | .openRequest src tgt point tag product preset hours shift => Sys2Proof.Machine.execOpen src tgt point tag product preset hours shift s
  | .hold src tgt point run => Sys2Proof.Machine.execHold src tgt point run s
  | .resume src tgt point run => Sys2Proof.Machine.execResume src tgt point run s
  | .cancel src tgt point run => Sys2Proof.Machine.execCancel src tgt point run s
  | .unlockPoint src tgt point => Sys2Proof.Machine.execUnlockPoint src tgt point s
  | .unlockTank src tgt tank => Sys2Proof.Machine.execUnlockTank src tgt tank s
  | .nozzleLift p => Sys2Proof.Machine.execNozzleLift p s
  | .hangUp p => Sys2Proof.Machine.execHangUp p s
  | .restartGuardExpiry p => Sys2Proof.Machine.execRestartGuardExpiry p s
  | .primeTimerExpiry p => Sys2Proof.Machine.execPrimeTimerExpiry p s
  | .noLiftTimerExpiry p => Sys2Proof.Machine.execNoLiftTimerExpiry p s
  | .queueTimerExpiry p => Sys2Proof.Machine.execQueueTimerExpiry p s
  | .holdTimerExpiry p => Sys2Proof.Machine.execHoldTimerExpiry p s
  | .stallTimerExpiry p => Sys2Proof.Machine.execStallTimerExpiry p s
  | .lingerTimerExpiry p => Sys2Proof.Machine.execLingerTimerExpiry p s
  | .progressTimerExpiry p => Sys2Proof.Machine.execProgressTimerExpiry p s
  | .draw src tgt tank demand flowing cumulative => Sys2Proof.Machine.execDraw src tgt tank demand flowing cumulative s
  | .peerDemandExpiry station tank => Sys2Proof.Machine.execPeerDemandExpiry station tank s
  | .drawTimerExpiry tank => Sys2Proof.Machine.execDrawTimerExpiry tank s
  | .stock src tgt tank value mark flags verdict variance => Sys2Proof.Machine.execStock src tgt tank value mark flags verdict variance s
  | .stalenessTimerExpiry tank => Sys2Proof.Machine.execStalenessTimerExpiry tank s
  | .gaugeSample pos valid level temp => Sys2Proof.Machine.execGaugeSample pos valid level temp s
  | .gaugeTimerExpiry pos => Sys2Proof.Machine.execGaugeTimerExpiry pos s
  | .fillLineActive pos => Sys2Proof.Machine.execFillLineActive pos s
  | .fillLineInactive pos => Sys2Proof.Machine.execFillLineInactive pos s
  | .settleTimerExpiry pos => Sys2Proof.Machine.execSettleTimerExpiry pos s
  | .lengthTimerExpiry pos => Sys2Proof.Machine.execLengthTimerExpiry pos s
  | .seek src tgt tag => Sys2Proof.Machine.execSeek src tgt tag s
  | .account src tgt r => Sys2Proof.Machine.execAccount src tgt r s
  | .seekWindowExpiry tag => Sys2Proof.Machine.execSeekWindowExpiry tag s
  | .spillLineSample line high => Sys2Proof.Machine.execSpillLineSample line high s
  | .waterBottomSample pos high => Sys2Proof.Machine.execWaterBottomSample pos high s
  | .repeatTimerExpiry zone => Sys2Proof.Machine.execRepeatTimerExpiry zone s
  | .spill src tgt zone kind index => Sys2Proof.Machine.execSpill src tgt zone kind index s
  | .allclear src tgt zone => Sys2Proof.Machine.execAllclear src tgt zone s
  | .collect src tgt first count => Sys2Proof.Machine.execCollect src tgt first count s
  | .confirm src tgt number => Sys2Proof.Machine.execConfirm src tgt number s
  | .presence src tgt body => Sys2Proof.Machine.execPresence src tgt body s
  | .presenceTimerExpiry => Sys2Proof.Machine.execPresenceTimerExpiry s
  | .peerAbsence station => Sys2Proof.Machine.execPeerAbsence station s
  | .attemptStart idle => Sys2Proof.Machine.execAttemptStart idle s
  | .frameSent => Sys2Proof.Machine.execFrameSent s
  | .attemptBroken => Sys2Proof.Machine.execAttemptBroken s
  | .askPoint src tgt point => Sys2Proof.Machine.execAskPoint src tgt point s
  | .askTank src tgt tank => Sys2Proof.Machine.execAskTank src tgt tank s
  | .askAccount src tgt tag => Sys2Proof.Machine.execAskAccount src tgt tag s
  | .askZone src tgt zone => Sys2Proof.Machine.execAskZone src tgt zone s
  | .askRecon src tgt tank => Sys2Proof.Machine.execAskRecon src tgt tank s
  | .askPeers src tgt => Sys2Proof.Machine.execAskPeers src tgt s
  | .restart src tgt fingerprint => Sys2Proof.Machine.execRestart src tgt fingerprint s
  | .frameHeard bytes => Sys2Proof.Machine.execFrameHeard bytes s

end Sys2Proof.Machine
end

