-- ==== Sys2Proof/WellFormed.lean ====
section
/-! DEFINITION. Well-formed commands: each operand fits the field that carries it (R183, R184), and names a line, timer or pin that exists (00_scope.md). -/
namespace Sys2Proof

/-! ### The checks -/

/-- A one-byte field (R183). -/
def byteOk (n : Nat) : Bool := decide (n ≤ 255)

/-- A two-byte field. -/
def wordOk (n : Nat) : Bool := decide (n ≤ 65535)

/-- A four-byte field. -/
def longOk (n : Nat) : Bool := decide (n ≤ max32)

/-- A signed four-byte field. -/
def signedOk (v : Int) : Bool := decide (-2147483648 ≤ v ∧ v ≤ 2147483647)

/-- A present run number is not 0 (R183). -/
def runOk (r : Option Nat) : Bool := r.all fun n => decide (1 ≤ n ∧ n ≤ 65535)

/-- A present hour reading is not 0xFFFFFFFF (R183). -/
def hoursOk (h : Option Nat) : Bool := h.all fun n => decide (n < max32)

/-- A machine tag's three parts (R183). -/
def tagOk (t : Tag) : Bool := decide (t.cls ≤ 63 ∧ t.fleet ≤ 15 ∧ t.unit ≤ 16383)

/-- A home-tank position or water-bottom line (00_scope.md). -/
def posOk (n : Nat) : Bool := decide (1 ≤ n ∧ n ≤ 4)

/-- A spill line (00_scope.md). -/
def lineOk (n : Nat) : Bool := decide (1 ≤ n ∧ n ≤ 12)

/-- A tank (00_scope.md). -/
def tankOk (n : Nat) : Bool := decide (1 ≤ n ∧ n ≤ 16)

/-- A drainage zone, zone 0 included (00_scope.md). -/
def zoneOk (n : Nat) : Bool := decide (n ≤ 7)

/-- Another station's number (00_scope.md). -/
def stationOk (n : Nat) : Bool := decide (1 ≤ n ∧ n ≤ 31)

/-- The level of the five strap pins (R177). -/
def strapsOk (n : Nat) : Bool := decide (n ≤ 31)

/-- The configuration memory answers no more than 4 KB (R178). -/
def memoryOk (m : Option (List Byte)) : Bool := m.all fun l => decide (l.length ≤ 4096)

/-- One level for each of the four fill lines (00_scope.md). -/
def fillOk (l : List Bool) : Bool := decide (l.length = 4)

/-- The source and target bytes of a frame (R184). -/
def endsOk (src tgt : Nat) : Bool := byteOk src && byteOk tgt

/-- The fields of an account record (R185). -/
def recordOk (r : AccountRec) : Bool :=
  tagOk r.tag && byteOk r.origin && hoursOk r.hoursLast && longOk r.unbooked && r.burnAvg.all longOk
    && byteOk r.burnCount && wordOk r.shift && longOk r.takenFuel && longOk r.takenFluid

/-- The fields of a PRESENCE (R184). -/
def presenceOk (b : PresenceBody) : Bool :=
  longOk b.uptime && wordOk b.uncollected && decide (b.zones.length = 8 ∧ b.points.length = 6)

/-- A command is well formed. -/
def Instr.wf : Instr → Bool
  | .resetLineAsserted => true
  | .powerOn straps => strapsOk straps
  | .imageCheckDone mem fill => memoryOk mem && fillOk fill
  | .listenTimerExpiry => true
  | .meterPulse _ _ => true
  | .temperatureSample _ _ _ => true
  | .sampleTimerExpiry _ => true
  | .rateUpdate _ => true
  | .openRequest src tgt point tag product preset hours shift =>
    endsOk src tgt && byteOk point && tagOk tag && byteOk product && longOk preset && hoursOk hours && wordOk shift
  | .hold src tgt point run => endsOk src tgt && byteOk point && runOk run
  | .resume src tgt point run => endsOk src tgt && byteOk point && runOk run
  | .cancel src tgt point run => endsOk src tgt && byteOk point && runOk run
  | .unlockPoint src tgt point => endsOk src tgt && byteOk point
  | .unlockTank src tgt tank => endsOk src tgt && byteOk tank
  | .nozzleLift _ => true
  | .hangUp _ => true
  | .restartGuardExpiry _ => true
  | .primeTimerExpiry _ => true
  | .noLiftTimerExpiry _ => true
  | .queueTimerExpiry _ => true
  | .holdTimerExpiry _ => true
  | .stallTimerExpiry _ => true
  | .lingerTimerExpiry _ => true
  | .progressTimerExpiry _ => true
  | .draw src tgt tank demand flowing _ => endsOk src tgt && byteOk tank && wordOk demand && byteOk flowing
  | .peerDemandExpiry station tank => stationOk station && tankOk tank
  | .drawTimerExpiry tank => tankOk tank
  | .stock src tgt tank value _ _ _ variance => endsOk src tgt && byteOk tank && longOk value && signedOk variance
  | .stalenessTimerExpiry tank => tankOk tank
  | .gaugeSample pos _ _ _ => posOk pos
  | .gaugeTimerExpiry pos => posOk pos
  | .fillLineActive pos => posOk pos
  | .fillLineInactive pos => posOk pos
  | .settleTimerExpiry pos => posOk pos
  | .lengthTimerExpiry pos => posOk pos
  | .seek src tgt tag => endsOk src tgt && tagOk tag
  | .account src tgt r => endsOk src tgt && recordOk r
  | .seekWindowExpiry tag => tagOk tag
  | .spillLineSample line _ => lineOk line
  | .waterBottomSample pos _ => posOk pos
  | .repeatTimerExpiry zone => zoneOk zone
  | .spill src tgt zone _ index => endsOk src tgt && byteOk zone && byteOk index
  | .allclear src tgt zone => endsOk src tgt && byteOk zone
  | .collect src tgt first count => endsOk src tgt && longOk first && byteOk count
  | .confirm src tgt number => endsOk src tgt && longOk number
  | .presence src tgt body => endsOk src tgt && presenceOk body
  | .presenceTimerExpiry => true
  | .peerAbsence station => stationOk station
  | .attemptStart _ => true
  | .frameSent => true
  | .attemptBroken => true
  | .askPoint src tgt point => endsOk src tgt && byteOk point
  | .askTank src tgt tank => endsOk src tgt && byteOk tank
  | .askAccount src tgt tag => endsOk src tgt && tagOk tag
  | .askZone src tgt zone => endsOk src tgt && byteOk zone
  | .askRecon src tgt tank => endsOk src tgt && byteOk tank
  | .askPeers src tgt => endsOk src tgt
  | .restart src tgt _ => endsOk src tgt
  | .frameHeard _ => true

/-- The source and target of a command that is a received frame (R184). -/
def Instr.ends : Instr → Option (Nat × Nat)
  | .resetLineAsserted => none
  | .powerOn _ => none
  | .imageCheckDone _ _ => none
  | .listenTimerExpiry => none
  | .meterPulse _ _ => none
  | .temperatureSample _ _ _ => none
  | .sampleTimerExpiry _ => none
  | .rateUpdate _ => none
  | .openRequest src tgt _ _ _ _ _ _ => some (src, tgt)
  | .hold src tgt _ _ => some (src, tgt)
  | .resume src tgt _ _ => some (src, tgt)
  | .cancel src tgt _ _ => some (src, tgt)
  | .unlockPoint src tgt _ => some (src, tgt)
  | .unlockTank src tgt _ => some (src, tgt)
  | .nozzleLift _ => none
  | .hangUp _ => none
  | .restartGuardExpiry _ => none
  | .primeTimerExpiry _ => none
  | .noLiftTimerExpiry _ => none
  | .queueTimerExpiry _ => none
  | .holdTimerExpiry _ => none
  | .stallTimerExpiry _ => none
  | .lingerTimerExpiry _ => none
  | .progressTimerExpiry _ => none
  | .draw src tgt _ _ _ _ => some (src, tgt)
  | .peerDemandExpiry _ _ => none
  | .drawTimerExpiry _ => none
  | .stock src tgt _ _ _ _ _ _ => some (src, tgt)
  | .stalenessTimerExpiry _ => none
  | .gaugeSample _ _ _ _ => none
  | .gaugeTimerExpiry _ => none
  | .fillLineActive _ => none
  | .fillLineInactive _ => none
  | .settleTimerExpiry _ => none
  | .lengthTimerExpiry _ => none
  | .seek src tgt _ => some (src, tgt)
  | .account src tgt _ => some (src, tgt)
  | .seekWindowExpiry _ => none
  | .spillLineSample _ _ => none
  | .waterBottomSample _ _ => none
  | .repeatTimerExpiry _ => none
  | .spill src tgt _ _ _ => some (src, tgt)
  | .allclear src tgt _ => some (src, tgt)
  | .collect src tgt _ _ => some (src, tgt)
  | .confirm src tgt _ => some (src, tgt)
  | .presence src tgt _ => some (src, tgt)
  | .presenceTimerExpiry => none
  | .peerAbsence _ => none
  | .attemptStart _ => none
  | .frameSent => none
  | .attemptBroken => none
  | .askPoint src tgt _ => some (src, tgt)
  | .askTank src tgt _ => some (src, tgt)
  | .askAccount src tgt _ => some (src, tgt)
  | .askZone src tgt _ => some (src, tgt)
  | .askRecon src tgt _ => some (src, tgt)
  | .askPeers src tgt => some (src, tgt)
  | .restart src tgt _ => some (src, tgt)
  | .frameHeard _ => none

end Sys2Proof
end

