-- ==== Sys2Proof/Safety.lean ====
section
/-! DEFINITION. The predicates that statements about the LC-24 use: a station ready for an event, the bounds its tables keep, and what the operations of a run leave unchanged. -/
namespace Sys2Proof.Machine

/-- A station after LOADING, between two events. -/
abbrev State.Ready (s : State) : Prop := s.up = true ∧ s.marks = EventMarks.clear

/-! ### Bounds -/

/-- The transmit queue holds at most 8 slots, at most one for each subject, and pending content has its slot's subject (R171). -/
abbrev Link.Ok (l : Link) : Prop :=
  l.queue.length ≤ Config.queueSlots ∧ (l.queue.filterMap fun x => x.frame.body.subject).Nodup
    ∧ ∀ x ∈ l.queue, (x.pending.all fun f => f.body.subject == x.frame.body.subject) = true

/-- Log numbers run consecutively up to the next log number (R155, R156). -/
def consecutive (next : Nat) : List LogRec → Bool
  | [] => true
  | [r] => nextLogNumber r.entry.number == next
  | r :: b :: rest => nextLogNumber r.entry.number == b.entry.number && consecutive next (b :: rest)

/-- The ring holds at most 256 records, consecutively numbered, and the uncollected count is that of its unmarked
records (R156, R162). -/
abbrev DeliveryLog.Ok (l : DeliveryLog) : Prop :=
  l.records.length ≤ Config.logRecords ∧ consecutive l.next l.records = true
    ∧ l.uncollected = (l.records.filter fun r => !r.collected).length

/-- The Account Cache holds at most 64 records, never two for one tag, and at most 6 seeks, one for each tag (R114, R122). -/
abbrev Accounts.Ok (a : Accounts) : Prop :=
  a.cache.length ≤ Config.cacheRecords ∧ (a.cache.map fun r => r.acc.tag).Nodup
    ∧ a.seeks.length ≤ Config.maxSeeks ∧ (a.seeks.map fun k => k.tag).Nodup

/-- The results ring of a home tank holds at most 8 results (R106). -/
abbrev HomeTank.Ok (h : HomeTank) : Prop := h.recon.ring.length ≤ Config.ringResults

/-- The bounds the tables keep. -/
abbrev State.Ok (s : State) : Prop := s.link.Ok ∧ s.log.Ok ∧ s.accounts.Ok ∧ ∀ h ∈ s.homes, h.Ok

/-- A point's items agree with its state: the columns of the table of 2.2 (run, pending OPEN, pump, valve, timers), and
a faulted point is LOCKED (R48). -/
structure Point.Ok (x : Point) : Prop where
  run : x.run.isSome = x.st.inRun
  openReq : x.openReq.isSome = (x.st == .seeking)
  valve : x.valve.isSome = x.st.flows
  fault : (x.faultMeter || x.faultHose) = true → x.st = .locked
  pump : x.st = .idle ∨ x.st = .locked → x.pump = false
  linger : x.linger.isSome = (x.pump && (x.st == .linger || x.st == .seeking))
  prime : x.prime.isSome = true → x.st = .priming
  noLift : x.noLift.isSome = true → x.st = .ready
  queue : x.queue.isSome = true → x.st = .queued
  hold : x.hold.isSome = true → x.st = .held
  stall : x.stall.isSome = true → x.st.flows = true
  progress : x.progress.isSome = true → x.st.inRun = true
  pumpOn : x.st = .ready ∨ x.st = .queued ∨ x.st.flows = true ∨ x.st = .held ∨ x.st = .linger → x.pump = true
  primed : x.prime.isSome = true → x.pump = true

/-- Every point's items agree with its state. -/
abbrev State.PointsOk (s : State) : Prop := ∀ p, (s.getPoint p).Ok

/-- Whether a zone's bit stands in the beacon mask and the zone is not CLEAR. -/
def State.litBy (s : State) (r : ZoneRec) : Bool := s.beaconMask.getLsbD r.zone && r.st != .clear

/-- The beacon line follows the zones (R146), and every point with a zone that is not CLEAR is LOCKED (R47). -/
structure State.SpillOk (s : State) : Prop where
  beacon : s.spill.beacon = s.spill.zones.any s.litBy
  shut : ∀ p, (s.zoneOf p).isSome = true → s.zonesClear p = false → (s.getPoint p).st = .locked

/-- Whether the book flags a tank QUARANTINED. -/
def State.quarantined (s : State) (tank : Nat) : Bool := (s.entry tank).any fun e => e.flags.quarantined

/-- No point is in a run state or SEEKING on a QUARANTINED tank (R46). -/
def State.QuarantineOk (s : State) : Prop :=
  ∀ p c, s.pointCfg p = some c → s.quarantined c.tank = true → (s.getPoint p).st.busy = false

/-- The tables have one row for each key, the Flow Allotter follows the book's tanks, and each home tank is in the book
(R59, R77, R142). -/
structure State.TablesOk (s : State) : Prop where
  book : (s.book.map fun e => e.tank).Nodup
  allot : (s.allot.map fun t => t.tank) = s.book.map fun e => e.tank
  homes : (s.homes.map fun h => h.tank).Nodup
  homesIn : ∀ h ∈ s.homes, h.tank ∈ s.book.map fun e => e.tank
  zones : (s.spill.zones.map fun r => r.zone).Nodup

/-- The Flow Allotter's lists follow the points: a tank's admitted list holds the points in FLOWING or TAPER on it (R63),
its admission queue the QUEUED ones (R65), and neither holds a point twice. -/
structure State.ListsOk (s : State) : Prop where
  nodup : ∀ a ∈ s.allot, a.admitted.Nodup ∧ a.queue.Nodup
  admitted : ∀ a ∈ s.allot, ∀ p,
    p ∈ a.admitted ↔ (s.getPoint p).st.flows = true ∧ (s.getPoint p).run.map (·.tank) = some a.tank
  queue : ∀ a ∈ s.allot, ∀ p,
    p ∈ a.queue ↔ (s.getPoint p).st = .queued ∧ (s.getPoint p).run.map (·.tank) = some a.tank

/-- A point with a run, a pending OPEN or a busy state is configured: one that is not takes no events (R22). -/
def State.ConfiguredOk (s : State) : Prop :=
  ∀ p, (s.getPoint p).run.isSome = true ∨ (s.getPoint p).st.busy = true → (s.pointCfg p).isSome = true

/-- The restart list holds no frame of class 0: a RESTART forms no SPILL (R182). -/
def State.ListedOk (s : State) : Prop := ∀ x ∈ s.loader.restartList, x.frame.body.cls ≠ 0

/-! ### Frames heard -/

/-- A station number other than the station's own. -/
abbrev State.FromPeer (s : State) (src : Nat) : Prop := 1 ≤ src ∧ src ≤ 31 ∧ src ≠ s.own

/-- A target that is the station's own number. -/
abbrev State.Named (s : State) (tgt : Nat) : Prop := tgt = s.own ∧ tgt ≠ 0

/-- A target that takes in the station. -/
abbrev State.Addressed (s : State) (tgt : Nat) : Prop := tgt = 0 ∨ tgt = s.own

/-- A station ready for an event at which a frame queued now is placed by R171 and by nothing else: it transmits, the
restart list is empty and no collection is in hand. -/
structure State.Plain (s : State) : Prop where
  ready : s.Ready
  sends : s.own ≠ 0
  list : s.loader.restartList = []
  collection : s.log.collection = none

/-! ### Frames -/

/-- A Meter Channel apart from what a valve command changes (R16, R17). -/
def Channel.steady (c : Channel) : Channel := { c with rateTimer := none, rateAcc := 0, rate := 0, creep := 0 }

/-- What neither a run, nor a zone, nor the transmit queue changes by itself. -/
structure EventFrame (s t : State) : Prop where
  pending : t.pending = s.pending
  loader : { t.loader with restartList := [] } = { s.loader with restartList := [] }
  chans : ∀ p, (t.getChan p).steady = (s.getChan p).steady
  hooks : ∀ p, (t.getPoint p).offHook = (s.getPoint p).offHook
  permanent : ∀ p, (t.getPoint p).permanent = (s.getPoint p).permanent
  nextRun : t.nextRun = s.nextRun
  peers : (t.allot.map fun a => (a.tank, a.peers)) = s.allot.map fun a => (a.tank, a.peers)
  book : t.book = s.book
  homes : t.homes = s.homes
  lines : t.spill.lines = s.spill.lines
  presence : t.link.presence = s.link.presence
  presenceTimer : t.link.presenceTimer = s.link.presenceTimer
  seq : t.link.seq = s.link.seq
  attempt : t.link.attempt = s.link.attempt

/-- What the ends of runs, admissions, recomputations and the queueing of frames leave as it was: the frame above, and
the zones, the HOSE sources and the point faults. -/
structure RunFrame (s t : State) : Prop extends EventFrame s t where
  zones : t.spill.zones = s.spill.zones
  beacon : t.spill.beacon = s.spill.beacon
  hoseWet : ∀ p, (t.getHose p).wet = (s.getHose p).wet
  hoseSticky : ∀ p, (t.getHose p).sticky = (s.getHose p).sticky
  meterFault : ∀ p, (t.getPoint p).faultMeter = (s.getPoint p).faultMeter
  hoseFault : ∀ p, (t.getPoint p).faultHose = (s.getPoint p).faultHose

/-- The delivery record `d` of point `p`'s run `r`, ended between `s` and `t`, has its account's close update (R49, steps 4
to 6): verdict, sample and BURN_ANOMALY, the cached record and its attachment, and in a transmit queue with room the ACCOUNT
and the CLOSE with its FAULTED summary (R55). -/
structure BooksClosed (s t : State) (p : PointId) (r : RunRec) (d : DeliveryRec) : Prop where
  number : d.number = s.log.next ∧ t.log.next = nextLogNumber s.log.next
  held : ∀ c, s.account r.tag = some c → ∀ out, closeRecord s.own r (s.getChan p).runStd c.acc = out →
    t.account r.tag = some ⟨out.acc, c.attached - 1⟩
      ∧ d.verdict = out.verdict ∧ d.burnSample = out.sample ∧ d.anomaly = out.acc.anomaly
      ∧ (s.Plain → s.link.queue.length ≤ 5 → ∃ y ∈ t.link.queue, y.frame = ⟨0, .account out.acc⟩)
  unheld : s.account r.tag = none →
    t.account r.tag = none ∧ d.verdict = .notApplied ∧ d.burnSample = none ∧ d.anomaly = false
  close : s.Plain → s.link.queue.length ≤ 5 → ∃ y ∈ t.link.queue, y.frame = ⟨r.terminal, .close
    { point := pointNum p
      tag := r.tag
      run := r.number
      log := s.log.next
      reason := d.reason
      granted := r.granted
      gross := (s.getChan p).runGross
      standard := (s.getChan p).runStd
      vcf := (s.getChan p).vcf
      clamped := r.clamped
      dropout := r.dropout
      tempHeld := r.tempHeld
      anomaly := d.anomaly
      faulted := r.dropout || r.tempHeld
        || decide (d.reason ∈ [EndReason.stall, .meter, .hose, .spill, .quarantine]) }⟩

/-- The run `r` of point `p` in state `s` has ended by state `t` with a reason (R49): the run record is removed, the
valve closed, the run's timers stopped, the point out of its tank's lists, and the newest delivery record is the run's, its
books closed where no other point waits for the tank (whose admission could end another run in the same event, R66). -/
structure RunEnded (s t : State) (p : PointId) (r : RunRec) (reason : EndReason) : Prop where
  run : (t.getPoint p).run = none
  valve : (t.getPoint p).valve = none
  target : (t.getPoint p).target = 0
  timers : (t.getPoint p).prime = none ∧ (t.getPoint p).noLift = none ∧ (t.getPoint p).queue = none
    ∧ (t.getPoint p).hold = none ∧ (t.getPoint p).stall = none ∧ (t.getPoint p).progress = none
  lists : p ∉ t.admitted r.tank ∧ p ∉ t.waiting r.tank
  record : ∃ x, t.log.records.getLast? = some x ∧ x.collected = false ∧ x.entry.run = r.number ∧ x.entry.point = p
    ∧ x.entry.reason = reason ∧ x.entry.tag = r.tag ∧ x.entry.terminal = r.terminal ∧ x.entry.granted = r.granted
    ∧ x.entry.gross = (s.getChan p).runGross ∧ x.entry.standard = (s.getChan p).runStd ∧ x.entry.vcf = (s.getChan p).vcf
    ∧ x.entry.clamped = r.clamped ∧ x.entry.dropout = r.dropout ∧ x.entry.tempHeld = r.tempHeld
    ∧ x.entry.tank = r.tank ∧ x.entry.product = r.product ∧ x.entry.shift = r.shift ∧ x.entry.hours = r.hours
    ∧ x.entry.requested = r.requested ∧ x.entry.limiter = r.limiter
    ∧ x.entry.duration = (match r.firstFlowing with
      | some f => min max32 ((s.loader.clockMs - f) / 1000)
      | none => 0)
  books : (∀ q ∈ s.waiting r.tank, q = p) → ∃ x, t.log.records.getLast? = some x ∧ BooksClosed s t p r x.entry

/-- The configured linger time of a point, in ms. -/
def State.lingerMs (s : State) (p : PointId) : Nat :=
  match s.pointCfg p with
  | some c => secs c.linger
  | none => 0

/-- The pump and the state after an end that leaves the pump as it was (R50, first row). -/
def LeftByEnd (s t : State) (p : PointId) : Prop :=
  if (s.getPoint p).pump = true ∧ s.lingerMs p ≠ 0 then
    (t.getPoint p).st = .linger ∧ (t.getPoint p).pump = true ∧ (t.getPoint p).linger = some (s.lingerMs p)
  else
    (t.getPoint p).st = .idle ∧ (t.getPoint p).pump = false
      ∧ ((s.getPoint p).pump = true → (t.getPoint p).guard = s.guardTime p)

/-- Point `p` has opened its valve on admission with run `r` (R35): `s` is the state as the admission found it. -/
structure Opened (s t : State) (p : PointId) (c : PointCfg) (r : RunRec) : Prop where
  st : (t.getPoint p).st = if r.granted ≤ (s.getChan p).runGross + c.taperVol then .taper else .flowing
  valve : (t.getPoint p).valve
    = some (if r.granted ≤ (s.getChan p).runGross + c.taperVol then min c.floorRate c.taperRate else c.floorRate)
  timers : (t.getPoint p).noLift = none ∧ (t.getPoint p).queue = none ∧ (t.getPoint p).hold = none
    ∧ (t.getPoint p).stall = startTimer (secs c.stall)
  metering : (t.getChan p).creep = 0 ∧ (t.getChan p).rateTimer = some 250
  run : (t.getPoint p).run = some { r with firstFlowing := some (r.firstFlowing.getD s.loader.clockMs) }
  list : t.admitted r.tank = s.admitted r.tank ++ [p]
  frame : RunFrame s t

/-- Point `p` has asked admission with run `r` and waits for it (R34, R65). -/
structure Waits (s t : State) (p : PointId) (r : RunRec) : Prop where
  st : (t.getPoint p).st = .queued
  timers : (t.getPoint p).queue = some 120000 ∧ (t.getPoint p).noLift = none ∧ (t.getPoint p).hold = none
  valve : (t.getPoint p).valve = none
  run : (t.getPoint p).run = some r
  list : t.waiting r.tank = s.waiting r.tank ++ [p]
  frame : RunFrame s t

/-- Whether admission is given when asked for a point of floor rate `f` (R64). -/
def State.givesAdmission (s : State) (tank f : Nat) : Prop :=
  s.waiting tank = [] ∧ f + s.floors tank ≤ s.available tank

/-- Whether neither an asking point of floor rate `f` nor the head of the queue fits (R64, R66). -/
def State.refusesAdmission (s : State) (tank f : Nat) : Prop :=
  match s.waiting tank with
  | [] => ¬ f + s.floors tank ≤ s.available tank
  | h :: _ => ¬ s.floorRate h + s.floors tank ≤ s.available tank

/-! ### Home tanks -/

/-- A window set `a` has become `b` by a discard with verdict NONE, if a window was open (R105, R106). -/
def Discarded (a b : Recon) : Prop :=
  b = if a.window = .noWindow then a
    else { a with
      window := .noWindow
      length := none
      ring := (if a.ring.length < 8 then a.ring else a.ring.drop 1) ++ [⟨a.number, 0, a.m, 0, 0, .none⟩] }

/-- A held sample of home tank `h` with book entry `e` has been counted, the gauge timer set to `ms` (R86): at the count's
reaching 3 GAUGE_FAULT is set and a DUE window discarded (R105), before the STOCK of that sample (log 24), and while the
fault is set a repeat STOCK is queued. -/
structure HeldSample (s t : State) (h : HomeTank) (e : BookEntry) (ms : Nat) : Prop where
  gauge : (t.homeOf h.tank).map (·.gauge) = some { h.gauge with held := satAdd 255 h.gauge.held 1, timer := some ms }
  entry : (t.entry h.tank).map (·.flags)
    = some { e.flags with gaugeFault := e.flags.gaugeFault || decide (satAdd 255 h.gauge.held 1 = 3) }
  figures : (t.entry h.tank).map (fun x => (x.cond, x.stockAtMark, x.mark, x.drawn))
    = some (e.cond, e.stockAtMark, e.mark, e.drawn)
  recon : ∃ x, t.homeOf h.tank = some x
    ∧ if h.recon.window = .due ∧ e.flags.gaugeFault = false ∧ satAdd 255 h.gauge.held 1 = 3 then
        Discarded h.recon x.recon
      else x.recon = h.recon
  verdict : (t.entry h.tank).map (fun x => (x.verdict, x.variance))
    = some (if h.recon.window = .due ∧ e.flags.gaugeFault = false ∧ satAdd 255 h.gauge.held 1 = 3 then (.none, 0)
      else (e.verdict, e.variance))
  quiet : e.flags.gaugeFault = false → satAdd 255 h.gauge.held 1 ≠ 3 →
    t.entry h.tank = some e ∧ t.link.queue = s.link.queue
  announced : e.flags.gaugeFault = true ∨ satAdd 255 h.gauge.held 1 = 3 → ∃ x, t.entry h.tank = some x
    ∧ x.staleTimer = some 60000
    ∧ t.link.queue = (place s.link.queue
      ⟨0, .stock h.tank (e.stockAtMark - e.drawn) e.mark x.flags x.verdict x.variance⟩ false).1
  others : t.points = s.points ∧ t.chans = s.chans ∧ t.allot = s.allot ∧ t.log = s.log

/-! ### RESTART (R182) -/

/-- The record `a` of a tag after the close updates of the live runs of the points `ps` for it, in that order (R127). -/
def State.closedBy (s : State) (tag : Tag) (ps : List PointId) (a : AccountRec) : AccountRec :=
  ps.foldl (fun a p =>
    match (s.getPoint p).run with
    | some r => if r.tag = tag then (closeRecord s.own r (s.getChan p).runStd a).acc else a
    | none => a) a

/-- Where the frames of a kind stand in the restart list (R182, step 5); no other kind is formed. -/
def Body.restartRank : Body → Nat
  | .account _ => 0 | .close _ => 0
  | .deny .. => 1
  | .draw .. => 2
  | .stock .. => 3
  | .presence _ => 4
  | .grant .. => 5 | .progress .. => 5 | .seek _ => 5 | .spill .. => 5 | .tell .. => 5 | .batch .. => 5

/-! ### Zones -/

/-- A local source has tripped zone `z` (R141): the zone is TRIPPED and named for the source, the repeat timer started
(R143), the beacon set (R146), its points LOCKED for it (R147), and the SPILL in the queue of a station that transmits. -/
structure Tripped (s t : State) (z : Nat) (kind : SourceKind) (index : Nat) : Prop where
  zone : ∀ r, s.zoneRec z = some r →
    t.zoneRec z = some { r with st := .tripped, trip := some (kind, index), rpt := some 2000 }
  others : ∀ n, n ≠ z → t.zoneRec n = s.zoneRec n
  beacon : t.spill.beacon = t.spill.zones.any t.litBy
  shut : (s.zoneRec z).isSome = true → ∀ p, s.toldOf z p = true → (t.getPoint p).st = .locked
    ∧ (t.getPoint p).valve = none ∧ (t.getPoint p).pump = false ∧ (t.getPoint p).run = none
  sent : (s.zoneRec z).isSome = true → s.Plain → (∀ x ∈ s.link.queue, x.onLine = false) →
    ∃ x ∈ t.link.queue, x.frame = ⟨0, .spill z kind index⟩

end Sys2Proof.Machine
end

