-- ==== Sys2Proof/Certificates/Slice0/Obligations.lean ====
section
/-! DEFINITION. The statements about the LC-24, from the rules of spec/, family by family. -/
open Sys2Proof Sys2Proof.Machine

/-! ### The queue of commands, and what every step keeps -/

/-- A step with a command at the front of its queue runs that command on the state with the queue's rest. -/
def Obligations.StepRunsTheFrontCommand : Prop :=
  ∀ (s : State) (c : Instr) (rest : List Instr), s.pending = c :: rest → step s = exec c { s with pending := rest }

/-- The model's choice (log 2): with no command waiting, 1 ms passes. The clock counts, running timers lose 1 ms, ages grow
by 1 ms, and nothing else changes; while the reset line is held nothing changes. -/
def Obligations.EmptyQueueLetsAMillisecondPass : Prop :=
  ∀ (s : State), s.pending = [] →
    (s.loader.phase = .resetHeld → step s = .next s)
    ∧ (s.loader.phase ≠ .resetHeld → ∃ t, step s = .next t
      ∧ t.loader = { s.loader with listen := s.loader.listen.map (· - 1), clockMs := s.loader.clockMs + 1 }
      ∧ (∀ p, t.getPoint p = { s.getPoint p with
          guard := (s.getPoint p).guard.map (· - 1)
          prime := (s.getPoint p).prime.map (· - 1)
          noLift := (s.getPoint p).noLift.map (· - 1)
          queue := (s.getPoint p).queue.map (· - 1)
          hold := (s.getPoint p).hold.map (· - 1)
          stall := (s.getPoint p).stall.map (· - 1)
          linger := (s.getPoint p).linger.map (· - 1)
          progress := (s.getPoint p).progress.map (· - 1) })
      ∧ (∀ p, t.getChan p = { s.getChan p with
          rateTimer := (s.getChan p).rateTimer.map (· - 1), sampleTimer := (s.getChan p).sampleTimer.map (· - 1) })
      ∧ t.allot = (s.allot.map fun a => { a with
          timer := a.timer.map (· - 1), peers := a.peers.map fun e => { e with ageMs := satAdd 65535000 e.ageMs 1 } })
      ∧ t.book = (s.book.map fun e => { e with staleTimer := e.staleTimer.map (· - 1) })
      ∧ t.homes = (s.homes.map fun h => { h with
          gauge := { h.gauge with timer := h.gauge.timer.map (· - 1) }
          settle := h.settle.map (· - 1)
          recon := { h.recon with length := h.recon.length.map (· - 1) } })
      ∧ t.accounts = { s.accounts with seeks := s.accounts.seeks.map fun k => { k with left := k.left - 1 } }
      ∧ t.spill = { s.spill with zones := s.spill.zones.map fun r => { r with
          rpt := r.rpt.map (· - 1), ageMs := if r.lastSpill.isSome = true then satAdd 65535000 r.ageMs 1 else r.ageMs } }
      ∧ t.link = { s.link with
          presenceTimer := s.link.presenceTimer.map (· - 1)
          presence := s.link.presence.map fun e => { e with ageMs := satAdd 65535000 e.ageMs 1 } }
      ∧ t.pending = [] ∧ t.free = s.free ∧ t.marks = s.marks ∧ t.log = s.log ∧ t.nextRun = s.nextRun)

/-- No command stops the part: each gives a next state, whatever the state, and leaves the waiting commands. -/
def Obligations.EveryCommandGivesANextState : Prop :=
  ∀ (s : State) (c : Instr), ∃ t, exec c s = .next t ∧ t.pending = s.pending

/-- State.reset meets every invariant stated here. Its values are the model's choice (log 4): R177 says only that the station
holds no state while the reset line is held. -/
def Obligations.ResetStateMeetsTheInvariants : Prop :=
  State.reset.Ok ∧ State.reset.PointsOk ∧ State.reset.SpillOk ∧ State.reset.QuarantineOk ∧ State.reset.TablesOk
    ∧ State.reset.ListsOk ∧ State.reset.ConfiguredOk ∧ State.reset.ListedOk ∧ State.reset.marks = EventMarks.clear

/-- Every step keeps the bounds: a transmit queue of at most 8 slots with one for each subject (R171), a log of at most
256 consecutive records with its uncollected count (R156), at most 64 accounts and 6 seeks, one for each tag (R114, R122),
at most 8 window results (R106). -/
def Obligations.StepsKeepTheBounds : Prop :=
  ∀ (s : State), s.Ok → ∀ t, step s = .next t → t.Ok

/-- Every step keeps each point's items in agreement with its state (the table of 2.2), in states whose tables and lists of
runs stand as they should, and keeps every point that is not configured at rest (R22). -/
def Obligations.StepsKeepPointsInAgreement : Prop :=
  ∀ (s : State), s.PointsOk → s.TablesOk → s.ListsOk → s.ConfiguredOk → ∀ t, step s = .next t →
    t.PointsOk ∧ t.ConfiguredOk

/-- Every step keeps the beacon on its zones (R146), every point with a zone not CLEAR LOCKED (R47), and points off
QUARANTINED tanks: none is in a run state or SEEKING there (R46). -/
def Obligations.StepsKeepShutAndQuarantinedPoints : Prop :=
  (∀ (s : State), s.PointsOk → s.SpillOk → ∀ t, step s = .next t → t.SpillOk)
  ∧ ∀ (s : State), s.PointsOk → s.QuarantineOk → ∀ t, step s = .next t → t.QuarantineOk

/-- Every step keeps the tables' keys (one row for each tank and zone), leaves the event marks clear, and puts no frame of
class 0 in the restart list (R182). -/
def Obligations.StepsKeepTables : Prop :=
  (∀ (s : State), s.TablesOk → s.marks = EventMarks.clear → ∀ t, step s = .next t →
    t.TablesOk ∧ t.marks = EventMarks.clear)
  ∧ ∀ (s : State), s.ListedOk → s.marks = EventMarks.clear → ∀ t, step s = .next t → t.ListedOk

/-- Every step keeps the Flow Allotter's lists on the points that flow and that wait (R63, R65). -/
def Obligations.StepsKeepTheListsOfRuns : Prop :=
  ∀ (s : State), s.PointsOk → s.TablesOk → s.ListsOk → s.ConfiguredOk → ∀ t, step s = .next t → t.ListsOk

/-! ### Start-up (10) -/

/-- The reset line and power-on: outputs off, nothing held; at power-on the straps are read and LOADING begins with an
uptime of 0 and an empty restart list. Until LOADING ends nothing else but the image check has an effect (R177). The model's
choices in it: the values while the line is held are those of State.reset (log 4), POWER_ON acts in every phase (log 39),
and a command that cannot occur leaves the state (log 5). -/
def Obligations.ResetAndPowerOnBeginAfresh : Prop :=
  (∀ (s : State) (n : Nat),
    exec .resetLineAsserted s = .next { State.reset with pending := s.pending, free := s.free }
    ∧ (∃ t, exec .resetLineAsserted s = .next t ∧ t.loader.phase = .resetHeld ∧ t.spill.beacon = false
      ∧ ∀ p, (t.getPoint p).pump = false ∧ (t.getPoint p).valve = none)
    ∧ ∃ t, exec (.powerOn n) s = .next t ∧ t.loader.phase = .loading ∧ (n ≤ 31 → t.loader.strap = n)
      ∧ t.loader.restartList = [] ∧ t.loader.clockMs = 0 ∧ t.spill.beacon = false ∧ t.link.queue = []
      ∧ t.log.records = [] ∧ t.accounts.cache = [] ∧ t.pending = s.pending
      ∧ ∀ p, (t.getPoint p).pump = false ∧ (t.getPoint p).valve = none ∧ (t.getPoint p).run = none)
  ∧ ∀ (s : State) (c : Instr), s.up = false → c ≠ .resetLineAsserted → (∀ n, c ≠ .powerOn n) →
    (∀ m f, c ≠ .imageCheckDone m f) → exec c s = .next s

/-- A sound image: the phase becomes LISTENING with the listen timer at 6 s, a PRESENCE is queued, and every block takes
its values for power-on (R177; R19, R22, R59, R99, R100, R142, R155). A home tank whose fill line is active at the first look
is RECEIVING, with its repeat STOCK (R91, R92). An image found sound passes the checks of R178 that join its fields, and its
straps agree. The model's choices in it: the listen flag of that PRESENCE (log 34), the order of the STOCKs before it and
their restart of the staleness timer (log 38), the gauge timer's first 15 s (log 15). -/
def Obligations.SoundImageStartsTheStation : Prop :=
  (∀ (s : State) (mem : Option (List Byte)) (fill : List Bool), s.loader.phase = .loading → s.marks = EventMarks.clear →
    ∀ c fp, checkImage mem s.own = (some c, fp) →
    ∃ t, exec (.imageCheckDone mem fill) s = .next t
      ∧ t.loader.phase = .listening ∧ t.loader.listen = some 6000 ∧ t.loader.image = some c ∧ t.loader.imageOk = true
      ∧ t.loader.fingerprint = fp ∧ t.loader.strap = s.loader.strap ∧ t.loader.clockMs = s.loader.clockMs
      ∧ t.nextRun = 1 ∧ t.log.records = [] ∧ t.log.next = 1 ∧ t.log.uncollected = 0 ∧ t.accounts.cache = []
      ∧ t.accounts.seeks = [] ∧ t.link.presence = [] ∧ t.link.seq = 0 ∧ t.link.presenceTimer = some 5000
      ∧ t.spill.beacon = false ∧ (∀ r ∈ t.spill.zones, r.st = .clear ∧ r.trip = none ∧ r.rpt = none)
      ∧ t.book.map (·.tank) = c.bookTanks
      ∧ (∀ e ∈ t.book, ∀ active, ((List.zip c.homeTanks fill).any fun x => x.1 == e.tank && x.2) = active →
        e.cond = .unknown ∧ e.stockAtMark = 0 ∧ e.mark = 0 ∧ e.drawn = 0 ∧ e.ownDraw = 0
        ∧ e.flags = ⟨false, active, false, false, false, false⟩ ∧ e.verdict = .none ∧ e.variance = 0
        ∧ e.staleTimer = (if active = true then some 60000 else none) ∧ e.baselines = [])
      ∧ t.homes.map (·.tank) = c.homeTanks
      ∧ (∀ h ∈ t.homes, h.fillActive = ((List.zip c.homeTanks fill).any fun x => x.1 == h.tank && x.2)
        ∧ h.settle = none ∧ h.gauge = ⟨0, 0, none, 0, 0, 150, false, some 15000⟩
        ∧ h.recon = ⟨.noWindow, 0, 0, 0, 0, 0, none, 0, 0, []⟩
        ∧ h.lossWet = false ∧ h.lossSticky = false ∧ h.water = ⟨false, 0, false⟩)
      ∧ t.allot = (c.bookTanks.map fun n => ⟨n, [], [], [], 0, 0, 0, none⟩)
      ∧ (s.own = 0 → t.link.queue = [])
      ∧ (s.own ≠ 0 → ∃ b, t.link.queue = (((List.zip c.homeTanks fill).filter (·.2)).map fun x =>
          newSlot ⟨0, .stock x.1 0 0 ⟨false, true, false, false, false, false⟩ .none 0⟩ false)
            ++ [newSlot ⟨0, .presence b⟩ false]
        ∧ b.listen = true ∧ b.imageBad = false ∧ b.fingerprint = fp)
      ∧ ∀ p pc, c.points.get p = some pc →
        (t.getPoint p).st = (if s.own = 0 then .locked else .idle) ∧ (t.getPoint p).run = none
        ∧ (t.getPoint p).lockCause = (if s.own = 0 then .straps else .none)
        ∧ (t.getPoint p).permanent = (if s.own = 0 then .straps else .none)
        ∧ (t.getPoint p).prime = none ∧ (t.getPoint p).noLift = none ∧ (t.getPoint p).queue = none
        ∧ (t.getPoint p).hold = none ∧ (t.getPoint p).linger = none ∧ (t.getPoint p).stall = none
        ∧ (t.getPoint p).progress = none
        ∧ (t.getPoint p).openReq = none ∧ (t.getPoint p).pump = false ∧ (t.getPoint p).valve = none
        ∧ (t.getPoint p).faultMeter = false ∧ (t.getPoint p).faultHose = false
        ∧ (t.getPoint p).guard = startTimer (secs pc.guard)
        ∧ (t.getChan p).pairing = .none ∧ (t.getChan p).creep = 0 ∧ (t.getChan p).runGross = 0
        ∧ (t.getChan p).forward = 0 ∧ (t.getChan p).reverse = 0 ∧ (t.getChan p).unmatched = 0
        ∧ (t.getChan p).streak = 0 ∧ (t.getChan p).grossRes = 0 ∧ (t.getChan p).stdRes = 0
        ∧ (t.getChan p).probeCount = 0 ∧ (t.getChan p).rateAcc = 0 ∧ (t.getChan p).rate = 0
        ∧ (t.getChan p).runStd = 0 ∧ (t.getChan p).rateTimer = none ∧ (t.getChan p).probeFault = false
        ∧ (pc.mode = .auto → (t.getChan p).lastTemp = 150 ∧ (t.getChan p).goodSeen = false
          ∧ (t.getChan p).vcf = 100000 ∧ (t.getChan p).sampleTimer = some 2000)
        ∧ (pc.mode = .forced → (t.getChan p).lastTemp = pc.forced ∧ (t.getChan p).goodSeen = true
          ∧ (t.getChan p).vcf = vcfOf (t.alphaOf pc.product) pc.forced ∧ (t.getChan p).sampleTimer = none))
  ∧ ∀ (mem : Option (List Byte)) (strap : Nat), ∀ c fp, checkImage mem strap = (some c, fp) →
    (strap = 0 ∨ strap = c.station) ∧ 1 ≤ c.station ∧ c.station ≤ 31 ∧ c.bookTanks.length ≤ 8 ∧ c.homeTanks.length ≤ 4
    ∧ (∀ p pc, c.points.get p = some pc → pc.inRange = true
      ∧ ∃ tc, nth1 c.tanks pc.tank = some tc ∧ tc.product = pc.product)
    ∧ ∀ tc ∈ c.tanks, tc.floor1 ≤ tc.floor0 ∧ tc.floor2 ≤ tc.floor1 ∧ tc.floor3 ≤ tc.floor2 ∧ tc.floor0 ≤ tc.capacity

/-- A damaged image: each of the six points is LOCKED for IMAGE, the book is empty, and the station takes part in zone 0
alone, its spill lines read as the fixed settings (R179, R151, R163). -/
def Obligations.DamagedImageLocksTheStation : Prop :=
  ∀ (s : State) (mem : Option (List Byte)) (fill : List Bool), s.loader.phase = .loading → s.marks = EventMarks.clear →
    ∀ fp, checkImage mem s.own = (none, fp) →
    ∃ t, exec (.imageCheckDone mem fill) s = .next t
      ∧ t.loader.phase = .listening ∧ t.loader.listen = some 6000 ∧ t.loader.imageOk = false ∧ t.loader.fingerprint = fp
      ∧ t.book = [] ∧ t.homes = [] ∧ t.allot = [] ∧ t.threshold = 256 ∧ t.beaconMask = 1
      ∧ t.spill.zones.map (·.zone) = [0] ∧ (∀ r ∈ t.spill.zones, r.st = .clear)
      ∧ (∀ n, 1 ≤ n ∧ n ≤ 12 → t.lineCfg n = some ⟨.sump, 0, .wetHigh, 3, 3⟩)
      ∧ (∀ p, (t.getPoint p).st = .locked ∧ (t.getPoint p).lockCause = .image ∧ (t.getPoint p).permanent = .image
        ∧ t.pointCfg p = none)
      ∧ (s.own ≠ 0 → ∃ b, t.link.queue = [newSlot ⟨0, .presence b⟩ false] ∧ b.imageBad = true)

/-- The listen timer's expiry makes the phase RUNNING and queues nothing (R181); the PRESENCE timer's queues the station's
PRESENCE and starts the timer again at 5 s (R170). That an expiry of the stopped listen timer has no effect is the model's
reading (log 5). -/
def Obligations.ListenAndPresenceTimersExpire : Prop :=
  (∀ (s : State), s.Ready →
    (s.loader.listen.isSome = true →
      exec .listenTimerExpiry s = .next (s.setLoader { s.loader with phase := .running, listen := none }))
    ∧ (s.loader.listen = none → exec .listenTimerExpiry s = .next s))
  ∧ ∀ (s : State), s.Plain → s.link.presenceTimer.isSome = true →
    exec .presenceTimerExpiry s = .next ((s.setLink { s.link with presenceTimer := some 5000 }).setQueue
      (place s.link.queue ⟨0, .presence
        { role := .lane
          fingerprint := s.loader.fingerprint
          uptime := min max32 (s.loader.clockMs / 1000)
          imageBad := !s.loader.imageOk
          listen := decide (s.loader.phase = .listening)
          logPressing := s.log.pressing
          disagree := s.link.presence.any fun e => !e.absent && e.disagreeing
          uncollected := s.log.uncollected
          zones := (List.range 8).map fun z => ((s.zoneRec z).map (·.st)).getD .clear
          points := [PointId.p1, .p2, .p3, .p4, .p5, .p6].map fun p =>
            if (s.zoneOf p).isSome then some ((s.getPoint p).st, (s.getPoint p).lockCause) else none }⟩ false).1)

/-- An accepted RESTART (R58, R176, R182): it ends runs, seeks and windows and starts the listen period; it keeps the account
cache (but for the close updates), the log with the next log number, the class 0 slots, the book, the presence table, the
zones and the faults; the other slots give way to the frames formed, in R182's order. One with target 0 or another
fingerprint only refreshes its sender. The model's choices in it: the runs end in the order P1 to P6 (log 10), and the repeat
STOCKs restart their tanks' staleness timers (log 42). -/
def Obligations.RestartEndsRunsAndKeepsTheRest : Prop :=
  ∀ (s : State) (src tgt : Nat) (fp : Word32), s.Ready → s.PointsOk → s.TablesOk → s.ListsOk → s.Ok → s.FromPeer src →
    (s.Named tgt → fp = s.loader.fingerprint →
      ∀ live, (allPoints.filter fun p => (s.getPoint p).run.isSome) = live →
      ∀ kept, (s.link.queue.filter fun x => x.cls == 0) = kept →
      ∃ t, exec (.restart src tgt fp) s = .next t
      ∧ t.loader.phase = .listening ∧ t.loader.listen = some 6000
      ∧ (∀ p, (t.getPoint p).run = none ∧ (t.getPoint p).openReq = none ∧ (t.getPoint p).valve = none
        ∧ (t.getPoint p).pump = false ∧ (t.getPoint p).linger = none
        ∧ (t.getPoint p).guard = (if (s.getPoint p).pump = true then s.guardTime p else (s.getPoint p).guard)
        ∧ (t.getPoint p).st = (if (s.getPoint p).st = .idle ∨ (s.getPoint p).st = .locked then (s.getPoint p).st
          else if s.lockCauseOf p = .none then .idle else .locked))
      ∧ (∀ p, (t.getChan p).steady = (s.getChan p).steady ∧ (t.getChan p).creep = (s.getChan p).creep)
      ∧ t.accounts.seeks = [] ∧ (∀ h ∈ t.homes, h.recon.window = .noWindow) ∧ t.log.collection = none
      ∧ (t.allot.map fun a => (a.tank, a.peers, a.admitted, a.queue)) = (s.allot.map fun a => (a.tank, a.peers, [], []))
      ∧ t.link.presenceTimer = some 5000
      ∧ t.loader.strap = s.loader.strap ∧ t.loader.image = s.loader.image ∧ t.loader.imageOk = s.loader.imageOk
      ∧ t.loader.fingerprint = s.loader.fingerprint ∧ t.loader.clockMs = s.loader.clockMs
      ∧ t.link.presence = (s.refresh src).link.presence ∧ t.link.seq = s.link.seq ∧ t.nextRun = s.nextRun
      ∧ t.spill.zones = s.spill.zones ∧ t.spill.beacon = s.spill.beacon ∧ t.spill.lines = s.spill.lines
      ∧ (t.book.map fun e => (e.tank, e.cond, e.stockAtMark, e.mark, e.drawn, e.ownDraw, e.baselines, e.flags))
        = (s.book.map fun e => (e.tank, e.cond, e.stockAtMark, e.mark, e.drawn, e.ownDraw, e.baselines, e.flags))
      ∧ (∀ n, s.homeOf n = none → t.entry n = s.entry n)
      ∧ (∀ h ∈ s.homes, ∃ h', t.homeOf h.tank = some h' ∧ Discarded h.recon h'.recon ∧ { h' with recon := h.recon } = h)
      ∧ (∀ p, (t.getPoint p).faultMeter = (s.getPoint p).faultMeter ∧ (t.getPoint p).faultHose = (s.getPoint p).faultHose
        ∧ (t.getPoint p).permanent = (s.getPoint p).permanent ∧ (t.getPoint p).offHook = (s.getPoint p).offHook)
      ∧ (∀ new, t.log.records.drop (t.log.records.length - live.length) = new →
        t.log.records = (s.log.records ++ new).drop (s.log.records.length + live.length - 256)
        ∧ (new.map fun x => (x.collected, x.entry.point, x.entry.reason))
          = (live.map fun p => (false, p, EndReason.restart))
        ∧ ∀ x ∈ new, ∀ r, (s.getPoint x.entry.point).run = some r → x.entry.run = r.number ∧ x.entry.tag = r.tag
          ∧ x.entry.granted = r.granted ∧ x.entry.gross = (s.getChan x.entry.point).runGross
          ∧ x.entry.standard = (s.getChan x.entry.point).runStd)
      ∧ t.log.next = live.foldl (fun n _ => if n = 4294967295 then 1 else n + 1) s.log.next
      ∧ (∀ tag, t.account tag = (s.account tag).map fun c => ⟨s.closedBy tag live c.acc,
        c.attached - (live.filter fun p => (s.getPoint p).run.any fun r => r.tag == tag).length⟩)
      ∧ (t.accounts.cache.map (·.acc.tag)).Perm (s.accounts.cache.map (·.acc.tag))
      ∧ t.link.attempt = (s.link.attempt.map fun a =>
        { a with orphan := a.orphan || s.link.queue.any fun x => x.onLine && x.cls != 0 })
      ∧ ∀ l, (t.link.queue.drop kept.length).map (·.frame) ++ t.loader.restartList.map (·.frame) = l →
        t.link.queue = kept ++ (l.take (8 - kept.length)).map (fun f => newSlot f false)
        ∧ t.loader.restartList = (l.drop (8 - kept.length)).map (fun f => ⟨f, false⟩)
        ∧ (l.map (·.body.restartRank)).Pairwise (· ≤ ·)
        ∧ (∀ p ∈ live, ∀ r, (s.getPoint p).run = some r →
          (∃ x ∈ t.log.records, x.entry.point = p ∧ x.entry.run = r.number ∧ x.entry.reason = .restart
            ∧ ⟨r.terminal, .close (State.closeBody p x.entry)⟩ ∈ l)
          ∧ ∀ c, s.account r.tag = some c →
            ⟨0, .account (s.closedBy r.tag (live.takeWhile (· != p) ++ [p]) c.acc)⟩ ∈ l)
        ∧ (∀ p o, (s.getPoint p).openReq = some o → ⟨o.terminal, .deny (pointNum p) o.tag .starting⟩ ∈ l)
        ∧ (l.all fun f => match f.body with | .draw _ demand _ _ => demand == 0 | _ => true) = true
        ∧ (∀ h ∈ s.homes, ∃ e, t.entry h.tank = some e ∧ e.staleTimer = some 60000
          ∧ ⟨0, .stock h.tank (e.stockAtMark - e.drawn) e.mark e.flags e.verdict e.variance⟩ ∈ l)
        ∧ l.getLast? = some ⟨0, .presence t.presenceBody⟩)
    ∧ ((tgt = 0 ∨ s.Named tgt ∧ fp ≠ s.loader.fingerprint) → exec (.restart src tgt fp) s = .next (s.refresh src))

/-! ### Metering (01) -/

/-- A pulse is decoded by the pairing state, and counted by its class (R1, R2). -/
def Obligations.PulsesAreDecodedByTheTable : Prop :=
  ∀ (s : State) (p : PointId) (input : MeterInput), s.Ready → (s.pointCfg p).isSome = true →
    ∃ t, exec (.meterPulse p input) s = .next t
      ∧ ((t.getChan p).pairing, (t.getChan p).forward, (t.getChan p).reverse, (t.getChan p).unmatched, (t.getChan p).streak)
        = (match (s.getChan p).pairing, input with
          | .none, .a => (.aWaiting, (s.getChan p).forward, (s.getChan p).reverse, (s.getChan p).unmatched, (s.getChan p).streak)
          | .none, .b => (.bWaiting, (s.getChan p).forward, (s.getChan p).reverse, (s.getChan p).unmatched, (s.getChan p).streak)
          | .aWaiting, .a => (.aWaiting, (s.getChan p).forward, (s.getChan p).reverse,
            satAdd max32 (s.getChan p).unmatched 1, satAdd 255 (s.getChan p).streak 1)
          | .aWaiting, .b => (.none, satAdd max32 (s.getChan p).forward 1, (s.getChan p).reverse, (s.getChan p).unmatched, 0)
          | .bWaiting, .a => (.none, (s.getChan p).forward, satAdd max32 (s.getChan p).reverse 1, (s.getChan p).unmatched, 0)
          | .bWaiting, .b => (.bWaiting, (s.getChan p).forward, (s.getChan p).reverse,
            satAdd max32 (s.getChan p).unmatched 1, satAdd 255 (s.getChan p).streak 1))
      ∧ (∀ q, q ≠ p → (t.getChan q).steady = (s.getChan q).steady)
      ∧ (∀ q, (t.getPoint q).offHook = (s.getPoint q).offHook) ∧ t.nextRun = s.nextRun
      ∧ t.link.presence = s.link.presence ∧ t.spill.lines = s.spill.lines

/-- A forward pulse adds MF to the gross residue and credits a centilitre for each K × 100 in it (R3), to run gross while a
run is open (R4). The gross centilitres of a run add the VCF in force to the standard residue, and each 100,000 in it is a
standard centilitre: of the run, and of the station's own draw on its tank (R14, R80). -/
def Obligations.ForwardPulsesCreditVolume : Prop :=
  (∀ (s : State) (p : PointId), s.Ready → (s.getChan p).pairing = .aWaiting → ∀ c, s.pointCfg p = some c →
    ∃ t, exec (.meterPulse p .b) s = .next t
      ∧ (t.getChan p).grossRes = ((s.getChan p).grossRes + c.mf) % (c.k * 100)
      ∧ (t.getChan p).runGross
        = (if (s.getPoint p).run.isSome = true ∧ ((s.getChan p).grossRes + c.mf) / (c.k * 100) ≠ 0 then
            satAdd 4000000 (s.getChan p).runGross (((s.getChan p).grossRes + c.mf) / (c.k * 100))
          else (s.getChan p).runGross))
  ∧ ∀ (s : State) (p : PointId), s.Ready → (s.getChan p).pairing = .aWaiting → ∀ c, s.pointCfg p = some c →
    ∀ r, (s.getPoint p).run = some r → ((s.getChan p).grossRes + c.mf) / (c.k * 100) ≠ 0 →
    ∃ t, exec (.meterPulse p .b) s = .next t
      ∧ (t.getChan p).stdRes
        = ((s.getChan p).stdRes + ((s.getChan p).grossRes + c.mf) / (c.k * 100) * (s.getChan p).vcf) % 100000
      ∧ (((s.getChan p).stdRes + ((s.getChan p).grossRes + c.mf) / (c.k * 100) * (s.getChan p).vcf) / 100000 ≠ 0 →
        (t.getChan p).runStd = satAdd 4000000 (s.getChan p).runStd
          (((s.getChan p).stdRes + ((s.getChan p).grossRes + c.mf) / (c.k * 100) * (s.getChan p).vcf) / 100000)
        ∧ ∀ e, s.entry r.tank = some e → ∃ e', t.entry r.tank = some e'
          ∧ e'.drawn = satAdd max32 e.drawn
            (((s.getChan p).stdRes + ((s.getChan p).grossRes + c.mf) / (c.k * 100) * (s.getChan p).vcf) / 100000)
          ∧ e'.ownDraw = e.ownDraw + BitVec.ofNat 32
            (((s.getChan p).stdRes + ((s.getChan p).grossRes + c.mf) / (c.k * 100) * (s.getChan p).vcf) / 100000))
      ∧ (∀ n, n ≠ r.tank → t.entry n = s.entry n)

/-- Credits outside a run with the valve closed are creep and nothing else (R4, R17), and creep above 200 cL makes the
point's HOSE source WET, with the fault HOSE and the point LOCKED (R138, R140). -/
def Obligations.CreditsOutsideARunAreCreep : Prop :=
  ∀ (s : State) (p : PointId), s.Ready → s.PointsOk → (s.getChan p).pairing = .aWaiting → ∀ c, s.pointCfg p = some c →
    (s.getPoint p).run = none → ((s.getChan p).grossRes + c.mf) / (c.k * 100) ≠ 0 →
    ∃ t, exec (.meterPulse p .b) s = .next t
      ∧ (t.getChan p).creep = satAdd 2000000 (s.getChan p).creep (((s.getChan p).grossRes + c.mf) / (c.k * 100))
      ∧ (t.getChan p).runGross = (s.getChan p).runGross ∧ (t.getChan p).runStd = (s.getChan p).runStd
      ∧ (t.getChan p).stdRes = (s.getChan p).stdRes ∧ t.book = s.book ∧ t.homes = s.homes
      ∧ (if (s.getHose p).wet = false
            ∧ 200 < satAdd 2000000 (s.getChan p).creep (((s.getChan p).grossRes + c.mf) / (c.k * 100)) then
          (t.getHose p).wet = true ∧ (t.getHose p).sticky = true ∧ (t.getPoint p).faultHose = true
            ∧ (t.getPoint p).st = .locked
        else RunFrame (s.setChan p (t.getChan p)) t)

/-- Temperature samples and missing samples (R9 to R12): a good sample sets the temperature and the VCF, a held one
counts, and in FORCED mode neither is looked at. That an expiry of the stopped sample timer has no effect is the model's
reading (log 5). -/
def Obligations.TemperatureSamplesAreGoodOrHeld : Prop :=
  ∀ (s : State) (p : PointId) (valid : Bool) (v : Int), s.Ready →
    (∀ c, s.pointCfg p = some c →
      (c.mode = .auto → valid = true → -400 ≤ v → v ≤ 700 →
        exec (.temperatureSample p valid v) s = .next (s.modChan p fun ch =>
          { ch with
            lastTemp := v, goodSeen := true, probeCount := 0, probeFault := false
            vcf := vcfOf (s.alphaOf c.product) v, sampleTimer := some 2000 }))
      ∧ (c.mode = .auto → (valid = false ∨ v < -400 ∨ 700 < v) →
        exec (.temperatureSample p valid v) s = .next ((s.modChan p fun ch =>
          { ch with
            probeCount := satAdd 255 ch.probeCount 1
            probeFault := ch.probeFault || decide (3 ≤ satAdd 255 ch.probeCount 1)
            sampleTimer := some 2000 }).modPoint p fun x =>
          { x with run := x.run.map fun r => { r with tempHeld := true } }))
      ∧ (c.mode = .forced → exec (.temperatureSample p valid v) s = .next s))
    ∧ (s.pointCfg p = none → exec (.temperatureSample p valid v) s = .next s)
    ∧ ((s.getChan p).sampleTimer.isSome = true →
      exec (.sampleTimerExpiry p) s = .next ((s.modChan p fun ch =>
        { ch with
          probeCount := satAdd 255 ch.probeCount 1
          probeFault := ch.probeFault || decide (3 ≤ satAdd 255 ch.probeCount 1)
          sampleTimer := some 2000 }).modPoint p fun x =>
        { x with run := x.run.map fun r => { r with tempHeld := true } }))
    ∧ ((s.getChan p).sampleTimer = none → exec (.sampleTimerExpiry p) s = .next s)

/-- The VCF (R13): α × (T − 150) / 100 to the nearest integer, a half away from zero, subtracted from 100,000 and clamped
to 95,000..105,000; it is computed at every good sample, left by a held one, shown in the point's TELL, and recorded at a
run's end. -/
def Obligations.VcfFollowsR13 : Prop :=
  (∀ (α : Nat) (T : Int), ∃ r : Int,
    2 * ((α : Int) * (T - 150) - 100 * r) ≤ 100 ∧ -100 ≤ 2 * ((α : Int) * (T - 150) - 100 * r)
    ∧ (2 * ((α : Int) * (T - 150) - 100 * r) = 100 → (α : Int) * (T - 150) < 0)
    ∧ (2 * ((α : Int) * (T - 150) - 100 * r) = -100 → 0 < (α : Int) * (T - 150))
    ∧ (vcfOf α T : Int) = max 95000 (min 105000 (100000 - r)))
  ∧ (∀ (s : State) (p : PointId) (c : PointCfg) (v : Int), s.Ready → s.pointCfg p = some c → c.mode = .auto →
    -400 ≤ v → v ≤ 700 →
    (∃ t, exec (.temperatureSample p true v) s = .next t ∧ (t.getChan p).vcf = vcfOf (s.alphaOf c.product) v)
    ∧ ∃ t, exec (.temperatureSample p false v) s = .next t ∧ (t.getChan p).vcf = (s.getChan p).vcf)
  ∧ (∀ (s : State) (p : PointId), (s.pointAnswer p).vcf = (s.getChan p).vcf)
  ∧ (∀ (c : Image) (p : PointCfg), p.mode = .auto → (channelStart c p).vcf = 100000)
  ∧ (∀ (c : Image) (p : PointCfg) (k : ProductCfg), p.mode = .forced → nth1 c.products p.product = some k →
    (channelStart c p).vcf = vcfOf k.alpha p.forced)
  ∧ ∀ (s : State) (p : PointId) (r : RunRec) (reason : EndReason), (s.deliveryRecord p r reason).vcf = (s.getChan p).vcf

/-- A rate update measures the rate, moves the commanded rate toward the target by at most the ramp step, and tests for
over-rate (R16, R70, R139). A measured rate above 65,535 is a free value (log 11). -/
def Obligations.RateUpdatesMeasureAndRamp : Prop :=
  ∀ (s : State) (p : PointId), s.Ready → s.PointsOk → ∀ c, s.pointCfg p = some c → (s.getChan p).rateTimer.isSome = true →
    ((s.getChan p).rateAcc * 12 / 5 ≤ 65535 → rateOf (s.getChan p).rateAcc = (s.getChan p).rateAcc * 12 / 5)
    ∧ (if (s.getHose p).wet = false ∧ c.maxRate * 6 < rateOf (s.getChan p).rateAcc * 5 ∧ 2 ≤ (s.getHose p).overRate then
        ∃ t, exec (.rateUpdate p) s = .next t ∧ (t.getHose p).wet = true ∧ (t.getHose p).overRate = 0
          ∧ (t.getPoint p).faultHose = true ∧ (t.getPoint p).st = .locked ∧ (t.getPoint p).valve = none
          ∧ (t.getPoint p).run = none
      else
        exec (.rateUpdate p) s = .next (((s.modChan p fun ch =>
            { ch with rate := rateOf ch.rateAcc, rateAcc := 0, rateTimer := some 250 }).modPoint p fun x =>
            { x with valve := x.valve.map fun v => if v < x.target then min x.target (v + c.ramp) else v }).setHose p
          (if (s.getHose p).wet = true then s.getHose p
            else if c.maxRate * 6 < rateOf (s.getChan p).rateAcc * 5 then
              { s.getHose p with overRate := (s.getHose p).overRate + 1 }
            else { s.getHose p with overRate := 0 })))

/-! ### Delivery runs (02) -/

/-- The eligibility of a tag at a point (R26). -/
def Obligations.EligibilityFollowsR26 : Prop :=
  (∀ (f : Sys2Proof.Machine.Filter) (t : Tag), f.matches t = true ↔
    (∀ n, f.clsMask.testBit n = true → t.cls.testBit n = f.clsPattern.testBit n)
    ∧ ∀ n, f.fleetMask.testBit n = true → t.fleet.testBit n = f.fleetPattern.testBit n)
  ∧ ∀ (c : PointCfg) (t : Tag), eligible c t
    = (if t.unit = 0 then false
      else if c.filter1.enabled = false ∧ c.filter2.enabled = false then true
      else if c.filter2.enabled = false then c.filter1.matches t
      else if c.filter1.enabled = false then c.filter2.matches t
      else match c.logic with
        | .and => c.filter1.matches t && c.filter2.matches t
        | .or => c.filter1.matches t || c.filter2.matches t
        | .nand => !(c.filter1.matches t && c.filter2.matches t)
        | .nor => !(c.filter1.matches t || c.filter2.matches t))

/-- An OPEN is tested in the order of R23: the DENY of the first test that fails is queued to its sender, and the points
are as they were. One with target 0, or for another station, is ignored. -/
def Obligations.OpenIsTestedInOrder : Prop :=
  ∀ (s : State) (src tgt n : Nat) (tag : Tag) (product preset : Nat) (hours : Option Nat) (shift : Nat),
    s.Ready → s.FromPeer src →
    (s.Named tgt → ∀ reason,
      (if s.loader.phase = .listening ∨ s.loader.imageOk = false then some DenyReason.starting
        else match (pointOf n).bind fun p => (s.pointCfg p).map fun c => (p, c) with
          | none => some DenyReason.noPoint
          | some (p, c) =>
            if (s.getPoint p).st = .locked ∧ s.zonesClear p = false then some .locked
            else if (s.getPoint p).st = .locked ∧ ((s.getPoint p).faultMeter || (s.getPoint p).faultHose) = true then
              some .fault
            else if (s.getPoint p).st = .locked then some .locked
            else if (s.getPoint p).st = .seeking ∨ (s.getPoint p).st.inRun = true then some .busy
            else if product ≠ c.product then some .product
            else if preset < 100 then some .badPreset
            else if s.quarantined c.tank = true then some .quarantine
            else if eligible c tag = false then some .ineligible
            else none) = some reason →
      ∃ t, exec (.openRequest src tgt n tag product preset hours shift) s = .next t
        ∧ t = ((s.refresh src).queueFrame ⟨src, .deny n tag reason⟩).finish
        ∧ t.points = s.points ∧ t.chans = s.chans ∧ t.allot = s.allot ∧ t.accounts = s.accounts ∧ t.nextRun = s.nextRun)
    ∧ (tgt = 0 ∨ ¬ s.Addressed tgt →
      exec (.openRequest src tgt n tag product preset hours shift) s = .next (s.refresh src))

/-- The terms of a grant: the least of them is the preset, its limiter the first in the order RESERVE, ALLOWANCE,
POINT_MAX, REQUESTED (R29); the reserve term (R28) and the allowance term (R27). -/
def Obligations.GrantTermsFollowTheRules : Prop :=
  (∀ (requested pointMax reserve : Nat) (allowance : Option Nat),
    (leastTerm requested pointMax reserve allowance).2
      = min (min requested pointMax) (min reserve (allowance.getD reserve))
    ∧ ((leastTerm requested pointMax reserve allowance).1 = .reserve ↔
      (leastTerm requested pointMax reserve allowance).2 = reserve)
    ∧ ((leastTerm requested pointMax reserve allowance).1 = .allowance ↔
      (leastTerm requested pointMax reserve allowance).2 ≠ reserve
        ∧ allowance = some (leastTerm requested pointMax reserve allowance).2)
    ∧ ((leastTerm requested pointMax reserve allowance).1 = .pointMax ↔
      (leastTerm requested pointMax reserve allowance).2 ≠ reserve
        ∧ allowance ≠ some (leastTerm requested pointMax reserve allowance).2
        ∧ (leastTerm requested pointMax reserve allowance).2 = pointMax)
    ∧ ((leastTerm requested pointMax reserve allowance).1 = .requested ↔
      requested < reserve ∧ (∀ a, allowance = some a → requested < a) ∧ requested < pointMax)
    ∧ ((leastTerm requested pointMax reserve allowance).1 = .requested →
      (leastTerm requested pointMax reserve allowance).2 = requested))
  ∧ (∀ (s : State) (tank priority : Nat), ∀ e, s.entry tank = some e → ∀ c, s.tankCfg tank = some c →
    (e.cond = .unknown ∨ e.cond = .stale ∧ priority ≤ 1 → s.reserveTerm tank priority = 0)
    ∧ (e.cond = .current ∨ e.cond = .stale ∧ 2 ≤ priority → s.reserveTerm tank priority
      = e.stockAtMark - e.drawn
        - (match priority with | 0 => c.floor0 | 1 => c.floor1 | 2 => c.floor2 | _ => c.floor3) * 100
        - s.undeliveredOn tank))
  ∧ ∀ (s : State) (c : ClassCfg) (tag : Tag) (r : AccountRec),
    s.allowanceTerm c .fuel tag r
      = (if c.limitFuel = 0 then none else some (c.limitFuel * 100 - r.takenFuel - s.undeliveredFor tag .fuel))
    ∧ s.allowanceTerm c .fluid tag r
      = (if c.limitFluid = 0 then none else some (c.limitFluid * 100 - r.takenFluid - s.undeliveredFor tag .fluid))

/-- An OPEN accepted for a tag whose record is held is decided at once (R24): a GRANT makes the run record and sets up
its metering, attachment and timers (R7, R27, R29 to R31); with less than 100 cL to grant, a DENY names the limiter. -/
def Obligations.OpenOnAHeldRecordIsDecided : Prop :=
  ∀ (s : State) (src tgt : Nat) (p : PointId) (tag : Tag) (preset : Nat) (hours : Option Nat) (shift : Nat),
    s.Plain → s.PointsOk → s.FromPeer src → s.Named tgt → ∀ c, s.pointCfg p = some c →
    s.openTest (pointNum p) tag c.product preset = .ok (p, c) →
    ∀ a, s.account tag = some a → ∀ prod, s.productCfg c.product = some prod → ∀ cls, s.classCfg tag.cls = some cls →
    ∀ rolled, (if a.acc.shift = shift then a.acc else { a.acc with shift := shift, takenFuel := 0, takenFluid := 0 }) = rolled →
    ∀ least, leastTerm preset (c.maxRun * 100) (s.reserveTerm c.tank cls.priority)
      (s.allowanceTerm cls prod.group tag rolled) = least →
    ∃ t, exec (.openRequest src tgt (pointNum p) tag c.product preset hours shift) s = .next t
      ∧ (t.accounts.cache.head?.map (·.acc)) = some rolled
      ∧ (∀ q, q ≠ p → t.getPoint q = s.getPoint q ∧ t.getChan q = s.getChan q)
      ∧ t.book = s.book ∧ t.homes = s.homes ∧ t.allot = s.allot ∧ t.spill = s.spill ∧ t.log = s.log
      ∧ t.accounts.seeks = s.accounts.seeks
      ∧ (if least.2 < 100 then
          t.getPoint p = s.getPoint p ∧ t.getChan p = s.getChan p ∧ t.nextRun = s.nextRun
          ∧ t.link.queue = (place s.link.queue ⟨src, .deny (pointNum p) tag (denyReasonOf least.1)⟩ false).1
        else
          (t.getPoint p).run = some
            { number := s.nextRun
              terminal := src
              tag := tag
              priority := cls.priority
              product := c.product
              group := prod.group
              tank := c.tank
              zone := c.zone
              shift := shift
              hours := hours.filter (fun h => h ≤ 9999999)
              requested := preset
              granted := least.2
              limiter := least.1
              clamped := decide (least.2 < preset)
              dropout := false
              tempHeld := decide (c.mode = .auto)
                && (!(s.getChan p).goodSeen || decide (1 ≤ (s.getChan p).probeCount))
              lifted := false
              firstFlowing := none }
          ∧ t.nextRun = (if s.nextRun = 65535 then 1 else s.nextRun + 1)
          ∧ (t.accounts.cache.head?.map (·.attached)) = some (a.attached + 1)
          ∧ t.getChan p = { s.getChan p with
              forward := 0, reverse := 0, unmatched := 0, streak := 0, grossRes := 0, stdRes := 0, runGross := 0, runStd := 0 }
          ∧ (t.getPoint p).openReq = none ∧ (t.getPoint p).progress = some 1000 ∧ (t.getPoint p).valve = none
          ∧ ((s.getPoint p).pump = true → (t.getPoint p).st = .ready ∧ (t.getPoint p).linger = none
            ∧ (t.getPoint p).noLift = startTimer (secs c.noLift) ∧ (t.getPoint p).pump = true)
          ∧ ((s.getPoint p).pump = false → (t.getPoint p).st = .priming
            ∧ (t.getPoint p).pump = (s.getPoint p).guard.isNone
            ∧ (t.getPoint p).prime
              = (if (s.getPoint p).guard.isSome = true then (s.getPoint p).prime else startTimer (secs c.prime)))
          ∧ t.link.queue = (place s.link.queue ⟨src, .grant (pointNum p) tag s.nextRun preset least.2 least.1
            (decide (least.2 < preset))⟩ false).1)

/-- An OPEN accepted for a tag whose record is not held makes the point SEEKING with the OPEN pending (R24): it joins the
tag's seek, or a new seek is started with a SEEK queued (R118), the oldest idle one of six abandoned for it (R122). -/
def Obligations.OpenOnATagNotHeldSeeks : Prop :=
  ∀ (s : State) (src tgt : Nat) (p : PointId) (tag : Tag) (preset : Nat) (hours : Option Nat) (shift : Nat),
    s.Ready → s.Ok → s.FromPeer src → s.Named tgt → ∀ c, s.pointCfg p = some c →
    s.openTest (pointNum p) tag c.product preset = .ok (p, c) → s.account tag = none →
    ∃ t, exec (.openRequest src tgt (pointNum p) tag c.product preset hours shift) s = .next t
      ∧ t.getPoint p = { s.getPoint p with
          st := .seeking, openReq := some ⟨src, tag, preset, hours.filter (fun h => h ≤ 9999999), shift⟩ }
      ∧ (∀ q, q ≠ p → t.getPoint q = s.getPoint q) ∧ t.chans = s.chans ∧ t.nextRun = s.nextRun
      ∧ t.accounts.cache = s.accounts.cache ∧ t.book = s.book ∧ t.allot = s.allot ∧ t.spill = s.spill
      ∧ (∀ k, s.seekFor tag = some k →
        t.seekFor tag = some { k with waiting := k.waiting ++ [p] } ∧ t.accounts.seeks.length = s.accounts.seeks.length
        ∧ t.link.queue = s.link.queue)
      ∧ (s.seekFor tag = none →
        t.seekFor tag = some ⟨tag, [p], shift, none, 250⟩
        ∧ (s.accounts.seeks.length < 6 → t.accounts.seeks = s.accounts.seeks ++ [⟨tag, [p], shift, none, 250⟩])
        ∧ (s.accounts.seeks.length = 6 → ∀ pre k post, s.accounts.seeks = pre ++ k :: post →
          (∀ x ∈ pre, x.waiting ≠ []) → k.waiting = [] →
          t.accounts.seeks = pre ++ post ++ [⟨tag, [p], shift, none, 250⟩])
        ∧ (s.Plain → t.link.queue = (place s.link.queue ⟨0, .seek tag⟩ false).1))

/-- HOLD in FLOWING or TAPER closes the valve, gives the admission up and starts the hold timer (R42); otherwise, and with
target 0, it is ignored (R41). -/
def Obligations.HoldPutsAPointInHeld : Prop :=
  ∀ (s : State) (src tgt : Nat) (p : PointId) (run : Option Nat), s.Ready → s.PointsOk → s.FromPeer src →
    (s.ListsOk → s.TablesOk → s.Named tgt → s.runNamed p run = true → (s.getPoint p).st.flows = true →
      ∀ c, s.pointCfg p = some c → ∀ r, (s.getPoint p).run = some r → (s.tankAllot r.tank).isSome = true →
      ∃ t, exec (.hold src tgt (pointNum p) run) s = .next t
        ∧ (t.getPoint p).st = .held ∧ (t.getPoint p).valve = none ∧ (t.getPoint p).target = 0
        ∧ (t.getPoint p).stall = none ∧ (t.getPoint p).hold = startTimer (secs c.hold)
        ∧ (t.getPoint p).pump = (s.getPoint p).pump ∧ (t.getPoint p).run = some r
        ∧ (t.getChan p).rateTimer = none ∧ (t.getChan p).rate = 0 ∧ p ∉ t.admitted r.tank
        ∧ RunFrame (s.refresh src) t)
    ∧ (tgt = 0 ∨ s.runNamed p run = false ∨ (s.getPoint p).st.flows = false →
      exec (.hold src tgt (pointNum p) run) s = .next (s.refresh src))

/-- Admission that is given opens the valve (R35, R64): on RESUME in HELD (R44), on a lift in READY (R33), and on entering
READY with lifted set (R33). A run whose reserve test fails at its opening ends with reason RESERVE in that event (R40). -/
def Obligations.AdmissionOpensTheValve : Prop :=
  (∀ (s : State) (p : PointId), s.Ready → s.PointsOk → s.ListsOk → s.TablesOk → ∀ c, s.pointCfg p = some c →
    ∀ r, (s.getPoint p).run = some r → (s.tankAllot r.tank).isSome = true → s.givesAdmission r.tank c.floorRate →
    s.reserveFails p = false →
    (∀ src tgt run, s.FromPeer src → s.Named tgt → s.runNamed p run = true → (s.getPoint p).st = .held →
      ∃ t, exec (.resume src tgt (pointNum p) run) s = .next t ∧ Opened (s.refresh src) t p c r)
    ∧ ((s.getPoint p).st = .ready → (s.getPoint p).offHook = false →
      ∃ t, exec (.nozzleLift p) s = .next t
        ∧ Opened (s.setPoint p { s.getPoint p with offHook := true }) t p c { r with lifted := true })
    ∧ ((s.getPoint p).prime.isSome = true → r.lifted = true →
      ∃ t, exec (.primeTimerExpiry p) s = .next t ∧ (t.getPoint p).prime = none ∧ Opened s t p c r))
  ∧ ∀ (s : State) (p : PointId), s.Ready → s.PointsOk → s.ListsOk → s.TablesOk → ∀ c, s.pointCfg p = some c →
    ∀ r, (s.getPoint p).run = some r → (s.tankAllot r.tank).isSome = true → s.givesAdmission r.tank c.floorRate →
    s.reserveFails p = true →
    (∀ src tgt run, s.FromPeer src → s.Named tgt → s.runNamed p run = true → (s.getPoint p).st = .held →
      ∃ t, exec (.resume src tgt (pointNum p) run) s = .next t ∧ RunEnded s t p r .reserve ∧ LeftByEnd s t p)
    ∧ ((s.getPoint p).st = .ready → (s.getPoint p).offHook = false →
      ∃ t, exec (.nozzleLift p) s = .next t ∧ RunEnded s t p r .reserve ∧ LeftByEnd s t p)
    ∧ ((s.getPoint p).prime.isSome = true → r.lifted = true →
      ∃ t, exec (.primeTimerExpiry p) s = .next t ∧ RunEnded s t p r .reserve ∧ LeftByEnd s t p)

/-- Admission that is not given makes the point QUEUED, at the tail of its tank's queue (R34, R64). -/
def Obligations.AdmissionNotGivenQueuesThePoint : Prop :=
  ∀ (s : State) (p : PointId), s.Ready → s.PointsOk → s.ListsOk → s.TablesOk → ∀ c, s.pointCfg p = some c →
    ∀ r, (s.getPoint p).run = some r → (s.tankAllot r.tank).isSome = true → s.refusesAdmission r.tank c.floorRate →
    (∀ src tgt run, s.FromPeer src → s.Named tgt → s.runNamed p run = true → (s.getPoint p).st = .held →
      ∃ t, exec (.resume src tgt (pointNum p) run) s = .next t ∧ Waits (s.refresh src) t p r)
    ∧ ((s.getPoint p).st = .ready → (s.getPoint p).offHook = false →
      ∃ t, exec (.nozzleLift p) s = .next t
        ∧ Waits (s.setPoint p { s.getPoint p with offHook := true }) t p { r with lifted := true })
    ∧ ((s.getPoint p).prime.isSome = true → r.lifted = true →
      ∃ t, exec (.primeTimerExpiry p) s = .next t ∧ (t.getPoint p).prime = none ∧ Waits s t p r)

/-- A hang-up: it ends a run in FLOWING, TAPER or HELD, only clears lifted in PRIMING and READY, and returns a QUEUED
point to READY (R38). -/
def Obligations.HangUpFollowsR38 : Prop :=
  ∀ (s : State) (p : PointId), s.Ready → s.PointsOk → ∀ c, s.pointCfg p = some c → (s.getPoint p).offHook = true →
    ∀ s', s.setPoint p { s.getPoint p with offHook := false } = s' →
    ∀ r, (s.getPoint p).run = some r →
    ((s.getPoint p).st = .flowing ∨ (s.getPoint p).st = .taper ∨ (s.getPoint p).st = .held →
      ∃ t, exec (.hangUp p) s = .next t ∧ RunEnded s t p r .hangup ∧ LeftByEnd s t p ∧ RunFrame s' t)
    ∧ ((s.getPoint p).st = .priming ∨ (s.getPoint p).st = .ready →
      exec (.hangUp p) s = .next (s.setPoint p
        { s.getPoint p with offHook := false, run := some { r with lifted := false } }))
    ∧ ((s.getPoint p).st = .queued →
      ∃ t, exec (.hangUp p) s = .next t ∧ (t.getPoint p).st = .ready ∧ (t.getPoint p).queue = none
        ∧ (t.getPoint p).noLift = startTimer (secs c.noLift) ∧ (t.getPoint p).run = some { r with lifted := false }
        ∧ p ∉ t.waiting r.tank ∧ RunFrame s' t)

/-- The nozzle and the guard, prime, linger and PROGRESS timers where no admission is asked (R31 to R33, R51, R53). -/
def Obligations.PointTimersFollowTheirRules : Prop :=
  ∀ (s : State) (p : PointId), s.Ready → s.PointsOk → ∀ c, s.pointCfg p = some c →
    ((s.getPoint p).offHook = false → (s.getPoint p).st ≠ .ready →
      exec (.nozzleLift p) s = .next (s.setPoint p
        { s.getPoint p with offHook := true, run := (s.getPoint p).run.map fun r => { r with lifted := true } }))
    ∧ ((s.getPoint p).offHook = true → (s.getPoint p).run = none →
      exec (.hangUp p) s = .next (s.setPoint p { s.getPoint p with offHook := false }))
    ∧ ((s.getPoint p).guard.isSome = true → exec (.restartGuardExpiry p) s = .next (s.setPoint p
      (if (s.getPoint p).st = .priming ∧ (s.getPoint p).pump = false then
        { s.getPoint p with guard := none, pump := true, prime := startTimer (secs c.prime) }
      else { s.getPoint p with guard := none })))
    ∧ (∀ r, (s.getPoint p).run = some r → (s.getPoint p).prime.isSome = true → r.lifted = false →
      exec (.primeTimerExpiry p) s = .next (s.setPoint p
        { s.getPoint p with st := .ready, prime := none, noLift := startTimer (secs c.noLift) }))
    ∧ ((s.getPoint p).linger.isSome = true → exec (.lingerTimerExpiry p) s = .next (s.setPoint p
      { s.getPoint p with
        linger := none
        pump := false
        guard := startTimer (secs c.guard)
        st := if (s.getPoint p).st = .linger then .idle else .seeking }))
    ∧ (∀ r, (s.getPoint p).run = some r → (s.getPoint p).progress.isSome = true →
      ∃ t, exec (.progressTimerExpiry p) s = .next t
        ∧ t = ((s.setPoint p { s.getPoint p with progress := some 1000 }).queueFrame
          ⟨r.terminal, .progress (pointNum p) r.number (s.getPoint p).st (s.getChan p).runGross (s.getChan p).runStd
            ((s.getPoint p).valve.getD 0) (s.getChan p).probeFault⟩).finish)

/-- CANCEL in a run state ends the run; in SEEKING it is answered as R25 gives; elsewhere it is ignored (R45). -/
def Obligations.CancelFollowsR45 : Prop :=
  ∀ (s : State) (src tgt : Nat) (p : PointId) (run : Option Nat), s.Ready → s.PointsOk → s.FromPeer src → s.Named tgt →
    (∀ r, (s.getPoint p).run = some r → s.runNamed p run = true →
      ∃ t, exec (.cancel src tgt (pointNum p) run) s = .next t ∧ RunEnded s t p r .cancel ∧ LeftByEnd s t p
        ∧ RunFrame (s.refresh src) t)
    ∧ (∀ o, (s.getPoint p).openReq = some o → run = none →
      ∃ t, exec (.cancel src tgt (pointNum p) run) s = .next t
        ∧ t.getPoint p = { s.getPoint p with
            openReq := none, st := if (s.getPoint p).linger.isSome = true then .linger else .idle }
        ∧ (∀ k ∈ t.accounts.seeks, p ∉ k.waiting) ∧ t.accounts.seeks.length = s.accounts.seeks.length
        ∧ (s.Plain → t.link.queue = (place s.link.queue ⟨o.terminal, .deny (pointNum p) o.tag .cancelled⟩ false).1)
        ∧ (∀ q, q ≠ p → t.getPoint q = s.getPoint q) ∧ RunFrame (s.refresh src) t)
    ∧ ((s.getPoint p).st = .seeking ∧ run ≠ none ∨ (s.getPoint p).st = .idle ∨ (s.getPoint p).st = .linger
        ∨ (s.getPoint p).st = .locked ∨ (s.getPoint p).st ≠ .seeking ∧ s.runNamed p run = false →
      exec (.cancel src tgt (pointNum p) run) s = .next (s.refresh src))

/-- The no-lift, queue, hold and stall timers end the run with the reason of each (R33, R34, R43, R39). -/
def Obligations.RunTimersEndTheRun : Prop :=
  ∀ (s : State) (p : PointId), s.Ready → s.PointsOk → ∀ r, (s.getPoint p).run = some r →
    ((s.getPoint p).noLift.isSome = true →
      ∃ t, exec (.noLiftTimerExpiry p) s = .next t ∧ RunEnded s t p r .noLift ∧ LeftByEnd s t p ∧ RunFrame s t)
    ∧ ((s.getPoint p).queue.isSome = true →
      ∃ t, exec (.queueTimerExpiry p) s = .next t ∧ RunEnded s t p r .noCapacity ∧ LeftByEnd s t p ∧ RunFrame s t)
    ∧ ((s.getPoint p).hold.isSome = true →
      ∃ t, exec (.holdTimerExpiry p) s = .next t ∧ RunEnded s t p r .holdExpired ∧ LeftByEnd s t p ∧ RunFrame s t)
    ∧ ((s.getPoint p).stall.isSome = true →
      ∃ t, exec (.stallTimerExpiry p) s = .next t ∧ RunEnded s t p r .stall ∧ LeftByEnd s t p ∧ RunFrame s t)

/-- UNLOCK of a point (R52): its faults are cleared and its HOSE source becomes DRY; it goes to IDLE, or stays LOCKED for
its permanent lock or its zones; the answer is its TELL. With no fault the answer is TELL NOTHING. That either is part 1,
marked last, is the model's reading (log 23). -/
def Obligations.UnlockClearsPointFaults : Prop :=
  ∀ (s : State) (src tgt : Nat) (p : PointId), s.Ready → s.PointsOk → s.FromPeer src → s.Named tgt →
    (((s.getPoint p).faultMeter || (s.getPoint p).faultHose) = true →
      ∃ t, exec (.unlockPoint src tgt (pointNum p)) s = .next t
        ∧ (t.getPoint p).faultMeter = false ∧ (t.getPoint p).faultHose = false
        ∧ t.getHose p = { s.getHose p with wet := false, overRate := 0 }
        ∧ ((s.getPoint p).permanent = .none → s.zonesClear p = true →
          (t.getPoint p).st = .idle ∧ (t.getPoint p).lockCause = .none ∧ (t.getPoint p).guard = s.guardTime p)
        ∧ ((s.getPoint p).permanent = .none → s.zonesClear p = false →
          (t.getPoint p).st = .locked ∧ (t.getPoint p).lockCause = .zone)
        ∧ ((s.getPoint p).permanent ≠ .none → (t.getPoint p).st = .locked ∧ (t.getPoint p).lockCause
          = (if s.zonesClear p = true then (s.getPoint p).permanent else .zone))
        ∧ t.chans = s.chans ∧ t.spill.zones = s.spill.zones ∧ (∀ q, q ≠ p → t.getPoint q = s.getPoint q)
        ∧ (s.Plain → t.link.queue
          = (place s.link.queue ⟨src, .tell (.point (pointNum p)) 1 true (.point (t.pointAnswer p))⟩ false).1))
    ∧ (((s.getPoint p).faultMeter || (s.getPoint p).faultHose) = false →
      exec (.unlockPoint src tgt (pointNum p)) s
        = .next ((s.refresh src).queueFrame ⟨src, .tell (.point (pointNum p)) 1 true .nothing⟩).finish)

/-- A METER fault (R5, R48): with a run open, an unmatched pulse past the mismatch limit, or a reverse pulse past K, ends
the run with reason METER and locks the point (R2). -/
def Obligations.PulsesPastTheirLimitRaiseMeter : Prop :=
  ∀ (s : State) (p : PointId), s.Ready → s.PointsOk → ∀ c, s.pointCfg p = some c → ∀ r, (s.getPoint p).run = some r →
    ((s.getChan p).pairing = .aWaiting → c.mismatch < satAdd max32 (s.getChan p).unmatched 1 →
      ∃ t, exec (.meterPulse p .a) s = .next t ∧ RunEnded s t p r .meter ∧ (t.getPoint p).faultMeter = true
        ∧ (t.getPoint p).st = .locked ∧ (t.getPoint p).pump = false
        ∧ (s.zonesClear p = true → (s.getPoint p).permanent = .none → (t.getPoint p).lockCause = .fault))
    ∧ ((s.getChan p).pairing = .bWaiting → c.mismatch < satAdd max32 (s.getChan p).unmatched 1 →
      ∃ t, exec (.meterPulse p .b) s = .next t ∧ RunEnded s t p r .meter ∧ (t.getPoint p).faultMeter = true
        ∧ (t.getPoint p).st = .locked ∧ (t.getPoint p).pump = false
        ∧ (s.zonesClear p = true → (s.getPoint p).permanent = .none → (t.getPoint p).lockCause = .fault))
    ∧ ((s.getChan p).pairing = .bWaiting → c.k < satAdd max32 (s.getChan p).reverse 1 →
      ∃ t, exec (.meterPulse p .a) s = .next t
        ∧ RunEnded s t p { r with dropout := r.dropout || decide (3 ≤ (s.getChan p).streak) } .meter
        ∧ (t.getPoint p).faultMeter = true ∧ (t.getPoint p).st = .locked ∧ (t.getPoint p).pump = false)

/-- A pulse whose credits bring the run gross to the granted preset ends the run with reason PRESET, with all of the
pulse's credits in its record (R4, R37); short of it, at the taper threshold, the point enters TAPER, its rate at most the
taper rate (R36, R69) and its run as it was, but for PULSE_DROPOUT where the pulse ends a streak of 3 (R2), unless the run's reserve test failed at one of the standard centilitres credited (R40), when the run
ends with reason RESERVE. That a failed reserve test comes before the taper crossing is the model's reading (log 25). -/
def Obligations.PresetAndTaperFollowTheCredits : Prop :=
  ∀ (s : State) (p : PointId), s.Ready → s.PointsOk → s.TablesOk → s.ListsOk → (s.getChan p).pairing = .aWaiting →
    ∀ c, s.pointCfg p = some c → ∀ r, (s.getPoint p).run = some r → (s.getPoint p).st.flows = true →
    (s.tankAllot r.tank).isSome = true →
    ∀ n, ((s.getChan p).grossRes + c.mf) / (c.k * 100) = n → n ≠ 0 → (s.getChan p).runGross + n ≤ 4000000 →
    ∀ m, ((s.getChan p).stdRes + n * (s.getChan p).vcf) / 100000 = m →
    ∃ t, exec (.meterPulse p .b) s = .next t
      ∧ (r.granted ≤ (s.getChan p).runGross + n →
        (t.getPoint p).run = none ∧ (t.getPoint p).valve = none ∧ LeftByEnd s t p
        ∧ ∃ x ∈ t.log.records, x.entry.run = r.number ∧ x.entry.point = p ∧ x.entry.reason = .preset
          ∧ x.entry.gross = (s.getChan p).runGross + n ∧ x.entry.vcf = (s.getChan p).vcf)
      ∧ ((s.getChan p).runGross + n < r.granted → r.granted ≤ (s.getChan p).runGross + n + c.taperVol →
        (∀ bad : Bool, ((List.range m).any fun k => ((s.modChan p fun ch =>
            { ch with runStd := satAdd 4000000 ch.runStd (k + 1) }).modEntry r.tank fun e =>
              { e with drawn := satAdd max32 e.drawn (k + 1) }).reserveFails p) = bad →
          if bad = true then
            (t.getPoint p).run = none ∧ (t.getPoint p).valve = none ∧ LeftByEnd s t p
            ∧ ∃ x ∈ t.log.records, x.entry.run = r.number ∧ x.entry.point = p ∧ x.entry.reason = .reserve
              ∧ x.entry.gross = (s.getChan p).runGross + n
          else
            (t.getPoint p).st = .taper
            ∧ (t.getPoint p).run = some { r with dropout := r.dropout || decide (3 ≤ (s.getChan p).streak) }
            ∧ ((s.getPoint p).st = .flowing → ∀ v, (t.getPoint p).valve = some v →
              v ≤ (t.getPoint p).target ∧ v ≤ c.taperRate)))
      ∧ (∀ q, q ≠ p → (t.getChan q).steady = (s.getChan q).steady) ∧ t.spill.zones = s.spill.zones

/-! ### Flow allotment (03) -/

/-- The available capacity (R62), and the targets of an admitted list (R68): each is at least the point's floor rate and at
most its max rate; together they are A, or the sum of the max rates where that is less, or the floors where A is below them.
That a point brought to its max rate by the share is handed no remainder is the model's reading (log 36). -/
def Obligations.SharesPourTheCapacity : Prop :=
  (∀ (s : State) (tank : Nat), ∀ c, s.tankCfg tank = some c → ∀ a, s.tankAllot tank = some a →
    s.available tank = c.header - ((a.peers.filter fun e => e.cond == .live).map (·.demand)).sum)
  ∧ ∀ (a : Nat) (rates : List (Nat × Nat)), (∀ r ∈ rates, r.1 ≤ r.2) →
    (sharedTargets a rates).length = rates.length
    ∧ (∀ x ∈ List.zip rates (sharedTargets a rates), x.1.1 ≤ x.2 ∧ x.2 ≤ x.1.2)
    ∧ (sharedTargets a rates).sum ≤ max a (rates.map (·.1)).sum
    ∧ (a ≤ (rates.map (·.1)).sum → sharedTargets a rates = rates.map (·.1))
    ∧ ((rates.map (·.1)).sum ≤ a → (sharedTargets a rates).sum = min a (rates.map (·.2)).sum)
    ∧ ∀ f m, f ≤ m → sharedTargets a [(f, m)] = [max f (min a m)]

/-- A taken DRAW sets the peer's demand entry (R60) and counts its cumulative draw against the baseline (R81); one that is
not for the station, for no tank of its book, or from a station it does not trust (R169) only refreshes its sender. -/
def Obligations.DrawIsTakenByAllotterAndBook : Prop :=
  ∀ (s : State) (src tgt tank demand flowing : Nat) (cum : Word32), s.Ready → s.TablesOk → s.FromPeer src →
    (s.Addressed tgt → (s.refresh src).trusts src = true → flowing ≤ 6 →
      ∀ e, s.entry tank = some e → ∀ a, s.tankAllot tank = some a → ∀ d,
      (match e.baselines.find? (·.1 == src) with
        | none => 0
        | some b => if (cum - b.2).toNat ≤ 10000000 then (cum - b.2).toNat else 0) = d →
      ∃ t, exec (.draw src tgt tank demand flowing cum) s = .next t
        ∧ (∃ a', t.tankAllot tank = some a'
          ∧ a'.peers = insertRow (·.station) ⟨src, demand, flowing, 0, .live⟩ a.peers)
        ∧ t.entry tank = some { e with
            drawn := satAdd max32 e.drawn d, baselines := insertRow (·.1) (src, cum) e.baselines }
        ∧ (∀ h, s.homeOf tank = some h → ∃ h', t.homeOf tank = some h' ∧ h'.gauge = h.gauge
          ∧ h'.recon.m = (if h.recon.window = .noWindow then h.recon.m else satAdd max32 h.recon.m d))
        ∧ (∀ n, n ≠ tank → t.entry n = s.entry n)
        ∧ (∀ p, (t.getChan p).steady = (s.getChan p).steady ∧ (t.getPoint p).offHook = (s.getPoint p).offHook)
        ∧ t.nextRun = s.nextRun ∧ t.spill.zones = s.spill.zones ∧ t.link.presence = (s.refresh src).link.presence)
    ∧ (¬ s.Addressed tgt ∨ s.entry tank = none ∨ (s.refresh src).trusts src = false →
      exec (.draw src tgt tank demand flowing cum) s = .next (s.refresh src))

/-- A LIVE entry expires 3 s after its last taken DRAW (R61): its demand and flowing count are kept, and the tank is
recomputed. The DRAW timer's expiry repeats the DRAW while there is something to announce, and else stops the timer (R73,
R74). That an expiry of a younger entry, or of one that is not LIVE, has no effect is the model's reading (logs 5 and 29), as
is that the DRAW timer's expiry is taken whatever time it has left (log 3). -/
def Obligations.PeerEntriesExpireAndDrawsRepeat : Prop :=
  (∀ (s : State) (station tank : Nat), s.Ready → ∀ a, s.tankAllot tank = some a →
    ((∃ e ∈ a.peers, e.station = station ∧ e.cond = .live ∧ 3000 ≤ e.ageMs) →
      ∃ t, exec (.peerDemandExpiry station tank) s = .next t
        ∧ t = ((s.modAllot tank fun a =>
          { a with peers := a.peers.map fun e => if e.station = station then { e with cond := .expired } else e }).recompute
            tank).finish
        ∧ (∃ a', t.tankAllot tank = some a'
          ∧ a'.peers = a.peers.map fun e => if e.station = station then { e with cond := .expired } else e)
        ∧ RunFrame (s.modAllot tank fun a =>
          { a with peers := a.peers.map fun e => if e.station = station then { e with cond := .expired } else e }) t)
    ∧ ((∀ e ∈ a.peers, e.station = station → e.cond = .live → e.ageMs < 3000) → exec (.peerDemandExpiry station tank) s = .next s))
  ∧ ∀ (s : State) (tank : Nat), s.Plain → s.TablesOk → ∀ a, s.tankAllot tank = some a → ∀ e, s.entry tank = some e →
    a.timer.isSome = true →
    (if 0 < a.own ∨ e.ownDraw ≠ a.announcedDraw then
      ∃ t, exec (.drawTimerExpiry tank) s = .next t
        ∧ t.tankAllot tank = some { a with announced := a.own, announcedDraw := e.ownDraw, timer := some 1000 }
        ∧ t.link.queue = (place s.link.queue ⟨0, .draw tank a.own a.admitted.length e.ownDraw⟩ false).1
        ∧ (∀ n, n ≠ tank → t.tankAllot n = s.tankAllot n) ∧ t.points = s.points ∧ t.chans = s.chans ∧ t.book = s.book
    else
      exec (.drawTimerExpiry tank) s = .next (s.modAllot tank fun a => { a with timer := none }))

/-! ### Tank stock (04) -/

/-- A taken STOCK (R83, R84): a repeat, a publication, or one with GAUGE_FAULT, by the entry's condition and mark; a newly
set QUARANTINED leaves no point of the tank busy (R46, R94). One from another station, or one not trusted, is ignored. The
staleness timer's expiry makes a CURRENT entry STALE (R79), which ends the runs of priority 0 and 1 that flow from the tank
(R40). -/
def Obligations.StockIsTakenAndGoesStale : Prop :=
  (∀ (s : State) (src tgt tank value : Nat) (mark : Byte) (flags : StockFlags) (verdict : Verdict) (variance : Int),
    s.Ready → s.PointsOk → s.FromPeer src →
    (∀ e, s.entry tank = some e → s.Addressed tgt → e.home = src → (s.refresh src).trusts src = true →
      ∀ e', (if flags.gaugeFault = true then
          if e.cond = .unknown then { e with flags := flags, verdict := verdict, variance := variance }
          else { e with
            flags := flags, verdict := verdict, variance := variance, cond := .current, staleTimer := some 60000 }
        else if e.cond = .current ∧ e.mark = mark then
          { e with flags := flags, verdict := verdict, variance := variance, staleTimer := some 60000 }
        else
          { e with
            flags := flags, verdict := verdict, variance := variance, cond := .current, staleTimer := some 60000
            stockAtMark := value, mark := mark, drawn := 0 }) = e' →
      ∃ t, exec (.stock src tgt tank value mark flags verdict variance) s = .next t
        ∧ t.entry tank = some e'
        ∧ (flags.quarantined = true → e.flags.quarantined = false →
          ∀ p, s.tankOf p = some tank → (t.getPoint p).st.busy = false)
        ∧ (∀ n, n ≠ tank → t.entry n = s.entry n) ∧ t.homes = s.homes
        ∧ (∀ p, (t.getChan p).steady = (s.getChan p).steady) ∧ t.nextRun = s.nextRun ∧ t.spill.zones = s.spill.zones)
    ∧ (s.entry tank = none ∨ ¬ s.Addressed tgt ∨ (∀ e, s.entry tank = some e → e.home ≠ src)
        ∨ (s.refresh src).trusts src = false →
      exec (.stock src tgt tank value mark flags verdict variance) s = .next (s.refresh src)))
  ∧ ∀ (s : State) (tank : Nat), s.Ready → s.PointsOk → ∀ e, s.entry tank = some e → e.staleTimer.isSome = true →
    (e.cond = .current →
      ∃ t, exec (.stalenessTimerExpiry tank) s = .next t
        ∧ t.entry tank = some { e with cond := .stale, staleTimer := none }
        ∧ (∀ p r, (s.getPoint p).run = some r → r.tank = tank → r.priority ≤ 1 → (s.getPoint p).st.flows = true →
          (t.getPoint p).run = none ∧ (t.getPoint p).valve = none)
        ∧ RunFrame (s.modEntry tank fun e => { e with cond := .stale, staleTimer := none }) t)
    ∧ (e.cond ≠ .current →
      exec (.stalenessTimerExpiry tank) s = .next (s.modEntry tank fun e => { e with staleTimer := none }))

/-- The strap table (R88): a table point gives its volume, a level between two gives the truncated interpolation, one below
the first gives the first's, and one above the last gives the last's with OVER_STRAP. An accepted sample of a home tank's
gauge is put through it and the standard conversion, and published (R87 to R90); with no window open it opens one, unless
RECEIVING is set (R101). A stock above 32 bits is a free value (log 12). -/
def Obligations.AcceptedSamplesArePublished : Prop :=
  (∀ (pre : List (Nat × Nat)) (l1 v1 l2 v2 : Nat) (post : List (Nat × Nat)) (l : Nat),
    rising (pre ++ (l1, v1) :: (l2, v2) :: post) = true →
    (l1 ≤ l → l ≤ l2 → strapVolume (pre ++ (l1, v1) :: (l2, v2) :: post) l
      = (v1 + (l - l1) * (v2 - v1) / (l2 - l1), false))
    ∧ (l < l1 → pre = [] → strapVolume (pre ++ (l1, v1) :: (l2, v2) :: post) l = (v1, false))
    ∧ (l2 < l → post = [] → strapVolume (pre ++ (l1, v1) :: (l2, v2) :: post) l = (v2, true)))
  ∧ (∀ litres vcf, litres * 100 * vcf / 100000 ≤ max32 → stockOf litres vcf = litres * 100 * vcf / 100000)
  ∧ ∀ (s : State) (pos : Nat) (level temp : Int), s.Plain → s.TablesOk → s.PointsOk → 0 ≤ level → level ≤ 20000 →
    ∀ h, s.homeAt pos = some h → ∀ c, s.homeCfg pos = some c → ∀ e, s.entry h.tank = some e →
    ∀ tc, s.tankCfg h.tank = some tc → ∀ prod, s.productCfg e.product = some prod →
    ∀ near, decide ((∀ l, h.gauge.lastLevel = some l → (level - l).natAbs ≤ c.jump)
      ∨ e.flags.receiving = true ∨ e.flags.gaugeFault = true) = near →
    near = true ∨ h.gauge.rejected = 2 →
    ∀ vol, strapVolume c.strap level.toNat = vol →
    ∀ good, (if -400 ≤ temp ∧ temp ≤ 700 then temp else h.gauge.lastTemp) = good →
    ∀ stock, stockOf vol.1 (vcfOf prod.alpha good) = stock →
    ∃ t, exec (.gaugeSample pos true level temp) s = .next t
      ∧ (∃ h', t.homeOf h.tank = some h'
        ∧ h'.gauge = ⟨0, 0, some level.toNat, vol.1, stock, good, decide (temp < -400 ∨ 700 < temp), some 15000⟩
        ∧ (h.recon.window = .running ∨ h.recon.window = .noWindow ∧ e.flags.receiving = true → h'.recon = h.recon)
        ∧ (h.recon.window = .noWindow → e.flags.receiving = false → h'.recon = { h.recon with
            window := .running, number := h.recon.next, next := h.recon.next + 1, g0 := stock, m := 0
            start := s.uptime, length := some (secs (tc.windowMin * 60)) }))
      ∧ (∃ e', t.entry h.tank = some e' ∧ e'.stockAtMark = stock ∧ e'.mark = e.mark + 1 ∧ e'.drawn = 0
        ∧ e'.cond = .current ∧ e'.staleTimer = some 60000 ∧ e'.ownDraw = e.ownDraw ∧ e'.baselines = e.baselines
        ∧ e'.flags.gaugeFault = false ∧ e'.flags.gaugeJump = !near ∧ e'.flags.overStrap = vol.2
        ∧ e'.flags.quarantined = e.flags.quarantined ∧ e'.flags.receiving = e.flags.receiving)
      ∧ (∀ n, n ≠ h.tank → t.entry n = s.entry n)
      ∧ (∀ p, (t.getChan p).steady = (s.getChan p).steady) ∧ t.nextRun = s.nextRun
      ∧ (h.recon.window ≠ .due → (∀ p, (s.getPoint p).st.flows = false) → t.points = s.points
        ∧ t.link.queue = (place s.link.queue ⟨0, .stock h.tank stock (e.mark + 1)
          { e.flags with gaugeFault := false, gaugeJump := !near, overStrap := vol.2 } e.verdict e.variance⟩ false).1)

/-- A held sample, and each expiry of the gauge timer (R86): GAUGE_FAULT at the third, a DUE window then discarded (R105), and
a repeat STOCK while the fault is set, which carries the verdict as the discard leaves it (the model's reading, log 24). A
sample too far from the last accepted level is rejected and counted (R87). -/
def Obligations.HeldAndRejectedSamplesAreCounted : Prop :=
  ∀ (s : State) (pos : Nat), s.Plain → s.TablesOk → ∀ h, s.homeAt pos = some h → ∀ e, s.entry h.tank = some e →
    (∀ (valid : Bool) (level temp : Int), (s.homeCfg pos).isSome = true → (valid = false ∨ level < 0 ∨ 20000 < level) →
      ∃ t, exec (.gaugeSample pos valid level temp) s = .next t ∧ HeldSample s t h e 15000)
    ∧ (h.gauge.timer.isSome = true → ∃ t, exec (.gaugeTimerExpiry pos) s = .next t ∧ HeldSample s t h e 10000)
    ∧ (∀ (level temp : Int), ∀ c, s.homeCfg pos = some c → 0 ≤ level → level ≤ 20000 →
      ∀ l, h.gauge.lastLevel = some l → c.jump < (level - l).natAbs → e.flags.receiving = false →
      e.flags.gaugeFault = false → h.gauge.rejected ≠ 2 →
      exec (.gaugeSample pos true level temp) s = .next (s.modHome h.tank fun h =>
        { h with gauge := { h.gauge with timer := some 15000, held := 0, rejected := h.gauge.rejected + 1 } }))

/-- The fill line sets RECEIVING, which discards an open window and queues a repeat STOCK (R92, R105, R91); it clears at the
settle timer's expiry. -/
def Obligations.FillLineSetsReceiving : Prop :=
  ∀ (s : State) (pos : Nat), s.Plain → s.TablesOk → ∀ h, s.homeAt pos = some h → ∀ e, s.entry h.tank = some e →
    (h.fillActive = false → e.flags.receiving = true → exec (.fillLineActive pos) s
      = .next (s.modHome h.tank fun h => { h with fillActive := true, settle := none }))
    ∧ (h.fillActive = false → e.flags.receiving = false →
      ∃ t, exec (.fillLineActive pos) s = .next t
        ∧ (∃ h', t.homeOf h.tank = some h' ∧ h'.fillActive = true ∧ h'.settle = none
          ∧ h'.gauge = { h.gauge with rejected := 0 } ∧ Discarded h.recon h'.recon)
        ∧ (∃ e', t.entry h.tank = some e' ∧ e' = { e with
            flags := { e.flags with receiving := true }, staleTimer := some 60000, verdict := e'.verdict
            variance := e'.variance }
          ∧ (e'.verdict, e'.variance) = (if h.recon.window = .noWindow then (e.verdict, e.variance) else (.none, 0))
          ∧ t.link.queue = (place s.link.queue
            ⟨0, .stock h.tank (e.stockAtMark - e.drawn) e.mark e'.flags e'.verdict e'.variance⟩ false).1)
        ∧ t.points = s.points ∧ t.chans = s.chans ∧ t.allot = s.allot)
    ∧ (∀ c, s.homeCfg pos = some c → h.fillActive = true → exec (.fillLineInactive pos) s
      = .next (s.modHome h.tank fun h => { h with fillActive := false, settle := some (secs c.settle) }))
    ∧ (h.settle.isSome = true →
      ∃ t, exec (.settleTimerExpiry pos) s = .next t
        ∧ t.homeOf h.tank = some { h with settle := none }
        ∧ t.entry h.tank = some { e with flags := { e.flags with receiving := false }, staleTimer := some 60000 }
        ∧ t.link.queue = (place s.link.queue ⟨0, .stock h.tank (e.stockAtMark - e.drawn) e.mark
          { e.flags with receiving := false } e.verdict e.variance⟩ false).1
        ∧ t.points = s.points ∧ t.chans = s.chans ∧ t.allot = s.allot)

/-- UNLOCK of a tank (R95): each row of its table. The model's readings in it: the TELLs count from part 1, and REFUSED_WET and
NOTHING are part 1, marked last (log 23); a tank number outside 1..16 is ignored (log 21). -/
def Obligations.UnlockTankFollowsItsTable : Prop :=
  ∀ (s : State) (src tgt tank : Nat), s.Ready → s.TablesOk → s.FromPeer src → s.Named tgt →
    (tank = 0 ∨ 16 < tank → exec (.unlockTank src tgt tank) s = .next (s.refresh src))
    ∧ (1 ≤ tank → tank ≤ 16 →
    (∀ h, s.homeOf tank = some h → ∀ e, s.entry tank = some e → e.flags.quarantined = true → h.water.wet = false →
      ∀ e', { e with flags := { e.flags with quarantined := false }, staleTimer := some 60000 } = e' →
      exec (.unlockTank src tgt tank) s = .next
        (((((s.refresh src).modEntry tank fun _ => e').queueFrame
          ⟨0, .stock tank (e.stockAtMark - e.drawn) e.mark e'.flags e.verdict e.variance⟩).modHome tank fun h =>
            { h with water := { h.water with sticky := false } }).queueFrames
          [⟨src, .tell (.tank tank) 1 false (.tank (State.tankAnswer e'))⟩,
            ⟨src, .tell (.tank tank) 2 true (.home (State.homeAnswer h))⟩]).finish)
    ∧ (∀ h, s.homeOf tank = some h → ∀ e, s.entry tank = some e → e.flags.quarantined = true → h.water.wet = true →
      exec (.unlockTank src tgt tank) s
        = .next ((s.refresh src).queueFrame ⟨src, .tell (.tank tank) 1 true .refusedWet⟩).finish)
    ∧ (s.homeOf tank = none ∨ (∀ e, s.entry tank = some e → e.flags.quarantined = false) →
      exec (.unlockTank src tgt tank) s
        = .next ((s.refresh src).queueFrame ⟨src, .tell (.tank tank) 1 true .nothing⟩).finish))

/-! ### Reconciliation (05) -/

/-- The length timer makes a RUNNING window DUE, or discards it on a faulted gauge (R103, R105). An accepted sample closes a
DUE window (R104): its verdict follows from variance and tolerance, enters the ring and the book entry (R106), and moves the
counts and the LOSS source (R107, R108), which trips the tank's zone (R141). -/
def Obligations.WindowsComeDueAndClose : Prop :=
  (∀ (s : State) (pos : Nat), s.Ready → s.TablesOk → ∀ h, s.homeAt pos = some h → ∀ e, s.entry h.tank = some e →
    h.recon.window = .running → h.recon.length.isSome = true →
    (e.flags.gaugeFault = false → exec (.lengthTimerExpiry pos) s
      = .next (s.modHome h.tank fun h => { h with recon := { h.recon with window := .due, length := none } }))
    ∧ (e.flags.gaugeFault = true →
      ∃ t, exec (.lengthTimerExpiry pos) s = .next t
        ∧ (∃ h', t.homeOf h.tank = some h' ∧ Discarded h.recon h'.recon ∧ h'.gauge = h.gauge ∧ h'.lossWet = h.lossWet)
        ∧ t.entry h.tank = some { e with verdict := .none, variance := 0 }
        ∧ t.points = s.points ∧ t.chans = s.chans ∧ t.link = s.link ∧ t.spill = s.spill))
  ∧ ∀ (s : State) (pos : Nat) (level temp : Int), s.Ready → s.TablesOk → s.PointsOk → 0 ≤ level → level ≤ 20000 →
    ∀ h, s.homeAt pos = some h → ∀ c, s.homeCfg pos = some c → ∀ e, s.entry h.tank = some e →
    ∀ tc, s.tankCfg h.tank = some tc → ∀ prod, s.productCfg e.product = some prod →
    (∀ l, h.gauge.lastLevel = some l → (level - l).natAbs ≤ c.jump) ∨ e.flags.receiving = true ∨ e.flags.gaugeFault = true
      ∨ h.gauge.rejected = 2 → h.recon.window = .due →
    ∀ stock, stockOf (strapVolume c.strap level.toNat).1
      (vcfOf prod.alpha (if -400 ≤ temp ∧ temp ≤ 700 then temp else h.gauge.lastTemp)) = stock →
    ∀ g : Int, (h.recon.g0 : Int) - stock = g → ∀ v : Int, g - h.recon.m = v →
    ∀ tol : Nat, max tc.tolMin (h.recon.m * tc.tolPpt / 1000) = tol →
    ∀ verdict, (if (tol : Int) < v then Verdict.bad else if v < -tol then Verdict.gain else Verdict.ok) = verdict →
    ∃ t, exec (.gaugeSample pos true level temp) s = .next t
      ∧ (∃ h', t.homeOf h.tank = some h'
        ∧ h'.recon.ring = (if h.recon.ring.length < 8 then h.recon.ring else h.recon.ring.drop 1)
          ++ [⟨h.recon.number, g, h.recon.m, v, tol, verdict⟩]
        ∧ (h'.recon.bad, h'.recon.ok) = (if verdict = .bad then (satAdd 255 h.recon.bad 1, 0)
          else (0, satAdd 255 h.recon.ok 1))
        ∧ h'.lossWet = (if verdict = .bad then h.lossWet || decide (tc.lossOn ≤ satAdd 255 h.recon.bad 1)
          else h.lossWet && !decide (tc.lossOff ≤ satAdd 255 h.recon.ok 1))
        ∧ h'.recon.window = (if e.flags.receiving = true then .noWindow else .running)
        ∧ (e.flags.receiving = false → h'.recon.g0 = stock ∧ h'.recon.number = h.recon.next ∧ h'.recon.m = 0)
        ∧ (∃ e', t.entry h.tank = some e' ∧ e'.verdict = verdict ∧ e'.variance = v
          ∧ e'.flags.loss = (if h'.lossWet = h.lossWet then e.flags.loss else h'.lossWet))
        ∧ (h.lossWet = false → h'.lossWet = true → ∀ z, s.zoneRec tc.zone = some z →
          ∃ z', t.zoneRec tc.zone = some z' ∧ z'.st = .tripped ∧ z'.trip = some (.loss, h.tank) ∧ z'.rpt = some 2000))
      ∧ (∀ n, n ≠ h.tank → t.entry n = s.entry n) ∧ t.nextRun = s.nextRun

/-! ### Machine hour accounts (06) -/

/-- Edit numbers are compared with wrapping (R115): newer, older, equal, and two edits 32,768 apart, of which neither
supersedes the other where a record is judged against a held or candidate one (R120, R124). -/
def Obligations.EditNumbersCompareWithWrapping : Prop :=
  (∀ (a b : Word16), newer a b = true ↔
    1 ≤ (a.toNat + 65536 - b.toNat) % 65536 ∧ (a.toNat + 65536 - b.toNat) % 65536 ≤ 32767)
  ∧ (∀ (a : Word16), newer a a = false)
  ∧ (∀ (a b : Word16), (a.toNat + 65536 - b.toNat) % 65536 = 32768 → newer a b = false ∧ newer b a = false ∧ a ≠ b)
  ∧ (∀ (x y : AccountRec), supersedes x y = (newer x.edit y.edit || (x.edit == y.edit && decide (y.origin < x.origin))))
  ∧ ∀ (s : State) (src tgt : Nat) (r : AccountRec), s.Ready → s.FromPeer src → s.Addressed tgt →
    (∀ c, s.account r.tag = some c → s.seekFor r.tag = none →
      (r.edit.toNat + 65536 - c.acc.edit.toNat) % 65536 = 32768 → exec (.account src tgt r) s = .next (s.refresh src))
    ∧ ∀ k, s.seekFor r.tag = some k → s.Ok → ∀ c, k.candidate = some c →
      (r.edit.toNat + 65536 - c.1.edit.toNat) % 65536 = 32768 → exec (.account src tgt r) s = .next (s.refresh src)

/-- An ACCOUNT taken is judged as a candidate by a pending seek (R120), or against the held record (R124); a SEEK is
answered from the held record, but for a copy that waits already (R123). Neither is taken from a station not trusted. -/
def Obligations.AccountsAreJudgedAndSeeksAnswered : Prop :=
  ∀ (s : State) (src tgt : Nat), s.Ready → s.Addressed tgt → s.FromPeer src →
    (∀ (r : AccountRec), (s.refresh src).trusts src = true → soundAccount r = true →
      (∀ k, s.seekFor r.tag = some k →
        exec (.account src tgt r) s = .next ((s.refresh src).setSeeks (modWhere (·.tag == r.tag) (fun k =>
          if k.candidate.all (fun c => supersedes r c.1) = true then { k with candidate := some (r, src) } else k)
          s.accounts.seeks)))
      ∧ (∀ c, s.account r.tag = some c → s.seekFor r.tag = none → supersedes r c.acc = true → s.Ok →
        ∃ t, exec (.account src tgt r) s = .next t ∧ t.accounts.cache.head? = some ⟨r, c.attached⟩
          ∧ t.accounts.cache.tail = s.accounts.cache.filter (fun x => x.acc.tag != r.tag)
          ∧ t.accounts.seeks = s.accounts.seeks ∧ t.link.queue = s.link.queue ∧ t.points = s.points)
      ∧ (∀ c, s.account r.tag = some c → s.seekFor r.tag = none → supersedes r c.acc = false →
        exec (.account src tgt r) s = .next (s.refresh src))
      ∧ (s.seekFor r.tag = none → s.account r.tag = none → exec (.account src tgt r) s = .next (s.refresh src)))
    ∧ (∀ (r : AccountRec), (s.refresh src).trusts src = false ∨ r.tag.unit = 0 ∨ r.burnAvg.isSome ≠ decide (0 < r.burnCount) →
      exec (.account src tgt r) s = .next (s.refresh src))
    ∧ ∀ (tag : Tag),
      (∀ c, s.account tag = some c → (s.refresh src).trusts src = true → tag.unit ≠ 0 →
        (s.link.queue.any fun x =>
          match x.frame.body with
          | .account a => a.tag == c.acc.tag && a.edit == c.acc.edit && a.origin == c.acc.origin
          | _ => false) = false →
        exec (.seek src tgt tag) s = .next ((s.refresh src).queueFrame ⟨0, .account c.acc⟩).finish)
      ∧ (∀ c, s.account tag = some c →
        (s.link.queue.any fun x =>
          match x.frame.body with
          | .account a => a.tag == c.acc.tag && a.edit == c.acc.edit && a.origin == c.acc.origin
          | _ => false) = true →
        exec (.seek src tgt tag) s = .next (s.refresh src))
      ∧ (s.account tag = none ∨ (s.refresh src).trusts src = false ∨ tag.unit = 0 →
        exec (.seek src tgt tag) s = .next (s.refresh src))

/-- A seek's window ends it (R121): its candidate, or a fresh record, is inserted, each waiting point is granted or denied
by the record, and the seek is removed. The first waiting point's grant is that of R27 to R29 on that record. -/
def Obligations.SeekWindowDecidesTheWaitingPoints : Prop :=
  ∀ (s : State) (tag : Tag), s.Ready → s.PointsOk → s.Ok → ∀ k, s.seekFor tag = some k → s.account tag = none →
    (∀ c, k.candidate = some c → c.1.tag = tag) →
    ∃ t, exec (.seekWindowExpiry tag) s = .next t ∧ t.seekFor tag = none
      ∧ (∃ c, t.account tag = some c ∧ ∀ r, (match k.candidate with | some x => x.1 | none => freshAccount tag k.shift) = r →
        c.acc.edit = r.edit ∧ c.acc.origin = r.origin ∧ c.acc.hoursLast = r.hoursLast ∧ c.acc.unbooked = r.unbooked
        ∧ c.acc.burnAvg = r.burnAvg ∧ c.acc.burnCount = r.burnCount ∧ c.acc.anomaly = r.anomaly
        ∧ (k.waiting = [] → c = ⟨r, 0⟩))
      ∧ (∀ p ∈ k.waiting, ∀ o, (s.getPoint p).openReq = some o → o.tag = tag → ∀ pc, s.pointCfg p = some pc →
        (s.productCfg pc.product).isSome = true → (s.classCfg tag.cls).isSome = true →
        (t.getPoint p).openReq = none
        ∧ ((t.getPoint p).run = none ∧ ((t.getPoint p).st = .idle ∨ (t.getPoint p).st = .linger)
          ∨ ((t.getPoint p).st = .priming ∨ (t.getPoint p).st = .ready)
            ∧ ∃ r, (t.getPoint p).run = some r ∧ r.tag = tag ∧ r.terminal = o.terminal ∧ r.requested = o.preset
              ∧ r.shift = o.shift ∧ r.hours = o.hours ∧ 100 ≤ r.granted ∧ r.granted ≤ o.preset))
      ∧ (∀ p rest, k.waiting = p :: rest → ∀ o, (s.getPoint p).openReq = some o → o.tag = tag →
        ∀ pc, s.pointCfg p = some pc → ∀ prod, s.productCfg pc.product = some prod →
        ∀ cls, s.classCfg tag.cls = some cls →
        ∀ r, (match k.candidate with | some x => x.1 | none => freshAccount tag k.shift) = r →
        ∀ rolled, (if r.shift = o.shift then r else { r with shift := o.shift, takenFuel := 0, takenFluid := 0 }) = rolled →
        ∀ least, leastTerm o.preset (pc.maxRun * 100) (s.reserveTerm pc.tank cls.priority)
          (s.allowanceTerm cls prod.group tag rolled) = least →
        if least.2 < 100 then
          (t.getPoint p).run = none
          ∧ (s.Plain → rest = [] → t.link.queue
            = (place s.link.queue ⟨o.terminal, .deny (pointNum p) tag (denyReasonOf least.1)⟩ false).1)
        else
          ((t.getPoint p).run.map fun x => (x.number, x.granted, x.limiter, x.clamped))
            = some (s.nextRun, least.2, least.1, decide (least.2 < o.preset))
          ∧ (s.Plain → rest = [] → t.link.queue = (place s.link.queue ⟨o.terminal, .grant (pointNum p) tag s.nextRun o.preset
            least.2 least.1 (decide (least.2 < o.preset))⟩ false).1))
      ∧ (∀ p, p ∉ k.waiting → t.getPoint p = s.getPoint p ∧ t.getChan p = s.getChan p)
      ∧ t.book = s.book ∧ t.homes = s.homes ∧ t.allot = s.allot ∧ t.spill = s.spill

/-- The close update (R127 to R130): shift and taken counts, the hours verdict and its effect, the burn sample folded in or
kept out, the edit number and the origin. -/
def Obligations.CloseUpdateFollowsTheRules : Prop :=
  ∀ (own : Nat) (run : RunRec) (std : Nat) (r : AccountRec),
    ∀ taken0, (if run.shift = r.shift then (r.takenFuel, r.takenFluid) else (0, 0)) = taken0 →
    ∀ v, (if run.group = .fluid ∨ std = 0 then HoursVerdict.notApplied
      else match run.hours, r.hoursLast with
        | none, _ => .absent
        | some _, none => .first
        | some h, some l =>
          if h < l then .backwards else if h = l then .same else if 2000 < h - l then .longGap else .accepted) = v →
    (closeRecord own run std r).verdict = v
    ∧ (closeRecord own run std r).acc.shift = run.shift
    ∧ ((closeRecord own run std r).acc.takenFuel, (closeRecord own run std r).acc.takenFluid)
      = (match run.group with
        | .fuel => (satAdd max32 taken0.1 std, taken0.2)
        | .fluid => (taken0.1, satAdd max32 taken0.2 std))
    ∧ (closeRecord own run std r).acc.edit = r.edit + 1 ∧ (closeRecord own run std r).acc.origin = own
    ∧ (closeRecord own run std r).acc.tag = r.tag
    ∧ ((closeRecord own run std r).acc.hoursLast, (closeRecord own run std r).acc.unbooked)
      = (match v with
        | .first | .longGap | .accepted => (run.hours, 0)
        | .notApplied => (r.hoursLast, r.unbooked)
        | .absent | .backwards | .same => (r.hoursLast, satAdd max32 r.unbooked std))
    ∧ (v ≠ .accepted → (closeRecord own run std r).sample = none
      ∧ (closeRecord own run std r).acc.burnAvg = r.burnAvg ∧ (closeRecord own run std r).acc.burnCount = r.burnCount
      ∧ (closeRecord own run std r).acc.anomaly = r.anomaly)
    ∧ (∀ h l, run.hours = some h → r.hoursLast = some l → v = .accepted →
      ∀ x, min max32 ((r.unbooked + std) * 10 / (h - l)) = x →
      (closeRecord own run std r).sample = some x
      ∧ (r.burnCount = 0 → (closeRecord own run std r).acc.burnAvg = some x
        ∧ (closeRecord own run std r).acc.burnCount = 1 ∧ (closeRecord own run std r).acc.anomaly = false)
      ∧ (∀ a, r.burnAvg = some a → 4 ≤ r.burnCount → (x * 2 < a ∨ a * 2 < x) →
        (closeRecord own run std r).acc.anomaly = true ∧ (closeRecord own run std r).acc.burnAvg = some a
        ∧ (closeRecord own run std r).acc.burnCount = r.burnCount)
      ∧ (∀ a, r.burnAvg = some a → 0 < r.burnCount → (r.burnCount < 4 ∨ a ≤ x * 2 ∧ x ≤ a * 2) →
        (closeRecord own run std r).acc.anomaly = false
        ∧ (closeRecord own run std r).acc.burnCount = satAdd 255 r.burnCount 1
        ∧ (closeRecord own run std r).acc.burnAvg = some (if a ≤ x then a + (x - a) / 4 else a - (a - x) / 4)))

/-! ### Spill monitor (07) -/

/-- A sample of a spill line (R136), and the local trip of a line going WET (R137, R141, R143, R147): its zone is TRIPPED
with the line as trip source, its points are LOCKED, and a SPILL is queued. -/
def Obligations.SpillLineSamplesAreFilteredAndTrip : Prop :=
  ∀ (s : State) (n : Nat) (high : Bool), s.Ready → s.PointsOk → s.SpillOk → ∀ c, s.lineCfg n = some c →
    ∀ x, nth1 s.spill.lines n = some x → ∀ wet, (match c.polarity with | .wetHigh => high | .wetLow => !high) = wet →
    ∀ x', (if wet = x.wet then { x with count := 0 }
      else if x.wet = true then
        if c.off ≤ x.count + 1 then { x with wet := false, count := 0 } else { x with count := x.count + 1 }
      else if c.on ≤ x.count + 1 then ⟨true, 0, true⟩ else { x with count := x.count + 1 }) = x' →
    ∀ s', s.setSpill { s.spill with lines := modNth1 s.spill.lines n fun _ => x' } = s' →
    (if x.wet = false ∧ x'.wet = true then
      ∃ t, exec (.spillLineSample n high) s = .next t ∧ Tripped s t c.zone c.kind n
        ∧ EventFrame s' t
    else exec (.spillLineSample n high) s = .next s')

/-- A sample of a water-bottom line (R136), and a line going WET (R93, R137): the tank is QUARANTINED with none of its
points busy, and the zone TRIPPED. -/
def Obligations.WaterBottomSamplesQuarantineAndTrip : Prop :=
  ∀ (s : State) (pos : Nat) (high : Bool), s.Ready → s.PointsOk → s.SpillOk → s.QuarantineOk → s.TablesOk →
    ∀ c, s.waterCfg pos = some c → ∀ h, s.homeAt pos = some h → ∀ e, s.entry h.tank = some e →
    ∀ wet, (match c.polarity with | .wetHigh => high | .wetLow => !high) = wet →
    ∀ x', (if wet = h.water.wet then { h.water with count := 0 }
      else if h.water.wet = true then
        if c.off ≤ h.water.count + 1 then { h.water with wet := false, count := 0 }
        else { h.water with count := h.water.count + 1 }
      else if c.on ≤ h.water.count + 1 then ⟨true, 0, true⟩ else { h.water with count := h.water.count + 1 }) = x' →
    (if h.water.wet = false ∧ x'.wet = true then
      ∃ t, exec (.waterBottomSample pos high) s = .next t ∧ Tripped s t c.zone .water pos
        ∧ t.homeOf h.tank = some { h with water := x' }
        ∧ t.entry h.tank = some { e with
            flags := { e.flags with quarantined := true }
            staleTimer := if e.flags.quarantined = true then e.staleTimer else some 60000 }
        ∧ (∀ p, s.tankOf p = some h.tank → (t.getPoint p).st.busy = false)
        ∧ (∀ n, n ≠ h.tank → t.entry n = s.entry n) ∧ t.nextRun = s.nextRun ∧ t.spill.lines = s.spill.lines
        ∧ (∀ p, (t.getChan p).steady = (s.getChan p).steady)
    else exec (.waterBottomSample pos high) s = .next (s.modHome h.tank fun h => { h with water := x' }))

/-- The repeat timer of a TRIPPED zone queues its SPILL again (R143). A SPILL received makes a CLEAR zone ECHOED, with its
points LOCKED, and leaves another zone's state (R144, R147). That one whose source index is out of its kind's range (7.1) is
ignored is the model's reading (log 22). -/
def Obligations.RepeatTimerAndSpillReceived : Prop :=
  (∀ (s : State) (zone : Nat), s.Plain → ∀ r, s.zoneRec zone = some r → r.rpt.isSome = true →
    ∀ trip, r.trip = some trip →
    ∃ t, exec (.repeatTimerExpiry zone) s = .next t ∧ t.zoneRec zone = some { r with rpt := some 2000 }
      ∧ t.link.queue = (place s.link.queue ⟨0, .spill zone trip.1 trip.2⟩ false).1
      ∧ (∀ n, n ≠ zone → t.zoneRec n = s.zoneRec n) ∧ t.points = s.points ∧ t.chans = s.chans ∧ t.book = s.book)
  ∧ ∀ (s : State) (src tgt zone : Nat) (kind : SourceKind) (index : Nat), s.Ready → s.PointsOk → s.FromPeer src →
    s.Addressed tgt → ∀ top, (match kind with | .water => 4 | .hose => 6 | .loss => 16 | _ => 12) = top →
    (index = 0 ∨ top < index → exec (.spill src tgt zone kind index) s = .next (s.refresh src))
    ∧ (1 ≤ index → index ≤ top →
    (∀ r, s.zoneRec zone = some r → r.st = .clear →
      ∃ t, exec (.spill src tgt zone kind index) s = .next t
        ∧ t.zoneRec zone = some { r with st := .echoed, lastSpill := some src, ageMs := 0 }
        ∧ t.spill.beacon = t.spill.zones.any t.litBy
        ∧ (∀ p, s.toldOf zone p = true → (t.getPoint p).st = .locked ∧ (t.getPoint p).lockCause = .zone
          ∧ (t.getPoint p).valve = none ∧ (t.getPoint p).pump = false ∧ (t.getPoint p).run = none)
        ∧ (∀ n, n ≠ zone → t.zoneRec n = s.zoneRec n) ∧ EventFrame (s.refresh src) t)
    ∧ (∀ r, s.zoneRec zone = some r → r.st ≠ .clear → exec (.spill src tgt zone kind index) s
      = .next ((s.refresh src).modZone zone fun r => { r with lastSpill := some src, ageMs := 0 }))
    ∧ (s.zoneRec zone = none → exec (.spill src tgt zone kind index) s = .next (s.refresh src)))

/-- An ALLCLEAR (R145): a zone with no WET source becomes CLEAR, its SPILL withdrawn and its points freed (R47, R147); with
one, it stays TRIPPED, named for the first WET source. The restart list holds no SPILL that could take the room of the one
withdrawn: O8 states that steps keep it so. -/
def Obligations.AllclearClearsADryZone : Prop :=
  ∀ (s : State) (src tgt zone : Nat), s.Ready → s.PointsOk → s.TablesOk → s.link.Ok → s.ListedOk → s.FromPeer src →
    s.Addressed tgt → ∀ r, s.zoneRec zone = some r →
    (r.st = .clear → exec (.allclear src tgt zone) s = .next (s.refresh src))
    ∧ (r.st = .echoed ∨ r.st = .tripped ∧ (∀ x ∈ s.localSources zone, x.wet = false) →
      ∃ t, exec (.allclear src tgt zone) s = .next t
        ∧ t.zoneRec zone = some { r with st := .clear, trip := none, rpt := none }
        ∧ t.spill.beacon = t.spill.zones.any t.litBy
        ∧ (∀ x ∈ t.link.queue, x.frame.body.subject = some (13, zone) → x.onLine = true ∧ x.withdrawn = true)
        ∧ (∀ p, s.toldOf zone p = true → t.zonesClear p = true → (s.getPoint p).st = .locked →
          if (s.getPoint p).permanent = .none ∧ (s.getPoint p).faultMeter = false ∧ (s.getPoint p).faultHose = false then
            t.getPoint p = { s.getPoint p with st := .idle, lockCause := .none, guard := s.guardTime p }
          else t.getPoint p = { s.getPoint p with lockCause :=
            if (s.getPoint p).permanent = .none then .fault else (s.getPoint p).permanent })
        ∧ (∀ p, s.toldOf zone p = false ∨ t.zonesClear p = false → t.getPoint p = s.getPoint p)
        ∧ (∀ n, n ≠ zone → t.zoneRec n = s.zoneRec n) ∧ t.chans = s.chans ∧ EventFrame (s.refresh src) t)
    ∧ (∀ w, (s.localSources zone).find? (·.wet) = some w → r.st = .tripped →
      ∃ t, exec (.allclear src tgt zone) s = .next t
        ∧ t.zoneRec zone = some { r with trip := some (w.kind, w.index), rpt := some 2000 }
        ∧ (s.Plain → t.link.queue = (place s.link.queue ⟨0, .spill zone w.kind w.index⟩ false).1)
        ∧ t.points = s.points ∧ t.chans = s.chans ∧ t.spill.beacon = s.spill.beacon)

/-! ### Delivery log (08) -/

/-- The log number (R155): 1 at power-on, one more for each record written, skipping 0; ages, and where a number stands;
records stand in log-number order, the newest of age 1. -/
def Obligations.LogNumbersFollowR155 : Prop :=
  (∀ (s : State) (mem : Option (List Byte)) (fill : List Bool), s.loader.phase = .loading →
    (∃ t, exec (.powerOn 0) s = .next t ∧ t.log.next = 1) ∧ (∃ t, exec .resetLineAsserted s = .next t ∧ t.log.next = 1)
    ∧ ∃ t, exec (.imageCheckDone mem fill) s = .next t ∧ t.log.next = 1)
  ∧ (∀ (s : State) (d : DeliveryRec), (((s.writeRecord d).log.records.getLast?).map fun x => x.entry.number) = some s.log.next
    ∧ (s.writeRecord d).log.next = (if s.log.next = 4294967295 then 1 else s.log.next + 1))
  ∧ (∀ (next h n : Nat), 1 ≤ next → next ≤ 4294967295 → 1 ≤ n → n ≤ 4294967295 → h ≤ 256 →
    ((logAge next n : Int) = ((next : Int) - n) % 4294967295)
    ∧ (1 ≤ logAge next n ∧ logAge next n ≤ h → logPlace next h n = .held)
    ∧ (h + 1 ≤ logAge next n ∧ logAge next n ≤ 2147483647 → logPlace next h n = .older)
    ∧ (logAge next n = 0 ∨ 2147483648 ≤ logAge next n → logPlace next h n = .newer))
  ∧ (∀ (next h number : Nat), confirms next h 0 number = false)
  ∧ ∀ (l : DeliveryLog), l.Ok → 1 ≤ l.next → l.next ≤ 4294967295 → ∀ i (h : i < l.records.length),
    logAge l.next (l.records[i]).entry.number = l.records.length - i

/-- A COLLECT with none in hand (R158 to R160): it is answered by one empty BATCH, or starts a collection whose first BATCH
carries the record asked for, or the oldest; a count of 0 or above 16 is ignored. One with a collection in hand replaces it:
its waiting BATCH is withdrawn, and the COLLECT is taken as with none in hand (R161, R173). A BATCH sent, or dropped at its
sixteenth broken attempt, is followed by the next part, or ends the collection if it was marked last (R159). A CONFIRM marks
the held records at or below its number, sets the uncollected count and LOG_PRESSING (R157, R162). -/
def Obligations.CollectAndConfirm : Prop :=
  (∀ (s : State) (src tgt first count : Nat), s.Plain → s.log.Ok → s.FromPeer src → s.Named tgt →
    s.link.queue.length < 8 →
    ((count = 0 ∨ 16 < count) → exec (.collect src tgt first count) s = .next (s.refresh src))
    ∧ (1 ≤ count → count ≤ 16 →
      (s.log.records = [] ∨ first ≠ 0 ∧ logPlace s.log.next s.log.records.length first = .newer →
        ∃ t, exec (.collect src tgt first count) s = .next t ∧ t.log = s.log
          ∧ t.link.queue = s.link.queue ++ [newSlot ⟨src, .batch 1 true s.newestLog s.log.uncollected none⟩ false])
      ∧ (∀ x, (if first = 0 ∨ logPlace s.log.next s.log.records.length first = .older then s.log.records.head?
          else s.log.records.find? fun r => r.entry.number == first) = some x →
        first = 0 ∨ logPlace s.log.next s.log.records.length first ≠ .newer →
        ∃ t, exec (.collect src tgt first count) s = .next t
          ∧ t.log = { s.log with collection := some ⟨src, nextLogNumber x.entry.number, count - 1, 2, true⟩ }
          ∧ t.link.queue = s.link.queue ++ [newSlot ⟨src, .batch 1 (decide (count = 1)
            || decide (x.entry.number = s.newestLog)) s.newestLog s.log.uncollected (some x.entry)⟩ true]
          ∧ t.points = s.points ∧ t.chans = s.chans)))
  ∧ (∀ (s : State), s.Ready → s.own ≠ 0 → s.loader.restartList = [] → ∀ c, s.log.collection = some c →
    ∀ pre x post, s.link.queue = pre ++ x :: post → x.ofCollection = true →
    (∀ (src tgt first count : Nat), s.FromPeer src → s.Named tgt → 1 ≤ count → count ≤ 16 →
      (∀ y ∈ pre ++ post, y.ofCollection = false) →
      ∀ s', (s.setLog { s.log with collection := none }).setLink { s.link with
        queue := pre ++ (if x.onLine = true then { x with withdrawn := true, ofCollection := false } :: post else post) } = s' →
      exec (.collect src tgt first count) s = exec (.collect src tgt first count) s')
    ∧ (∀ a, s.link.attempt = some a → a.orphan = false → x.onLine = true → (∀ y ∈ pre ++ post, y.onLine = false) →
      x.withdrawn = false → x.pending = none → s.link.queue.length ≤ 8 →
      ∀ part last newest unc d, x.frame.body = .batch part last newest unc d →
      (16 ≤ satAdd 255 x.attempts 1 → exec .attemptBroken s = exec .frameSent s)
      ∧ (last = true → exec .frameSent s = .next ((s.setLog { s.log with collection := none }).setLink
        { s.link with attempt := none, queue := pre ++ post }))
      ∧ (last = false →
        ∀ y, (if logPlace s.log.next s.log.records.length c.next = .older ∨ c.next = 0 then s.log.records.head?
          else s.log.records.find? fun r => r.entry.number == c.next) = some y →
        exec .frameSent s = .next ((s.setLog { s.log with
            collection := some ⟨c.collector, nextLogNumber y.entry.number, c.remaining - 1, c.part + 1, true⟩ }).setLink
          { s.link with
            attempt := none
            queue := pre ++ post ++ [newSlot ⟨c.collector, .batch c.part (decide (c.remaining - 1 = 0)
              || decide (y.entry.number = s.newestLog)) s.newestLog s.log.uncollected (some y.entry)⟩ true] }))))
  ∧ ∀ (s : State) (src tgt n : Nat), s.Ready → s.log.Ok → s.FromPeer src →
    (s.Named tgt → ∀ recs, (s.log.records.map fun r =>
        { r with collected := r.collected || (n ≠ 0
          ∧ (logPlace s.log.next s.log.records.length n = .newer
            ∨ logPlace s.log.next s.log.records.length n = .held
              ∧ logAge s.log.next n ≤ logAge s.log.next r.entry.number)) }) = recs →
      ∃ t, exec (.confirm src tgt n) s = .next t
        ∧ t.log = { s.log with
            records := recs
            uncollected := (recs.filter fun r => !r.collected).length
            pressing := decide (s.threshold ≤ (recs.filter fun r => !r.collected).length) }
        ∧ t.link.queue = s.link.queue ∧ t.points = s.points ∧ t.chans = s.chans)
    ∧ (tgt = 0 → exec (.confirm src tgt n) s = .next (s.refresh src))

/-! ### The bay link (09) -/

/-- Placing a frame in the transmit queue (R171): replacement, joining, and a full queue. A station that transmits, with no
restart list and no collection, places what a block queues so; one with straps 0 keeps nothing (R174). -/
def Obligations.FramesArePlacedByR171 : Prop :=
  (∀ (q : List Slot) (f : Frame) (o : Bool),
    (q.any (fun x => f.body.subject.isSome && x.frame.body.subject == f.body.subject) = true →
      place q f o = (q.map fun x =>
        if f.body.subject.isSome && x.frame.body.subject == f.body.subject then
          if x.onLine then { x with attempts := 0, pending := some f } else { x with frame := f, attempts := 0, seq := none }
        else x, none))
    ∧ (q.any (fun x => f.body.subject.isSome && x.frame.body.subject == f.body.subject) = false →
      (q.length < 8 → place q f o = (q ++ [newSlot f o], none))
      ∧ (8 ≤ q.length → (∀ x ∈ q, x.onLine = true) → place q f o = (q, some (newSlot f o)))
      ∧ ∀ pre v post, q = pre ++ v :: post → 8 ≤ q.length → v.onLine = false →
        (∀ x ∈ pre, x.onLine = true ∨ x.cls < v.cls) → (∀ x ∈ post, x.onLine = true ∨ x.cls ≤ v.cls) →
        place q f o = (if f.body.cls ≤ v.cls then (pre ++ post ++ [newSlot f o], some v) else (q, some (newSlot f o)))))
  ∧ (∀ (s : State) (f : Frame), s.Plain →
    (s.queueFrame f).finish = s.setQueue (place s.link.queue f false).1)
  ∧ ∀ (s : State) (f : Frame), s.Ready → s.own = 0 → (s.queueFrame f).finish = s

/-- The presence table (R167 to R169): a frame refreshes its source; a PRESENCE sets fingerprint, uptime and disagreeing;
one whose uptime fell clears the peer's baselines and makes the entries it is home to STALE (R82); one that newly disagrees,
and an absence, expire the peer's demand (R61). That a PRESENCE with an uncollected count above 256 is not taken is the
model's reading (log 22).
The mark of absence comes where the age has reached 15 s and the mark does not stand; that PEER_ABSENCE has no effect
elsewhere is the model's reading (logs 5 and 29). -/
def Obligations.PresenceTableFollowsItsRules : Prop :=
  (∀ (s : State) (n : Nat), (s.refresh n).peer n = some (match s.peer n with
    | some e => { e with ageMs := 0, absent := false }
    | none => ⟨n, none, none, 0, false, false⟩))
  ∧ (∀ (s : State) (src tgt : Nat) (b : PresenceBody), s.Ready → s.FromPeer src → s.Addressed tgt →
    (256 < b.uncollected → exec (.presence src tgt b) s = .next (s.refresh src))
    ∧ (b.uncollected ≤ 256 → ∀ e, (s.refresh src).peer src = some e →
    ∃ t, exec (.presence src tgt b) s = .next t
      ∧ t.peer src = some { e with
          uptime := some b.uptime, fingerprint := some b.fingerprint
          disagreeing := decide (b.fingerprint ≠ s.loader.fingerprint) }
      ∧ (∀ n, n ≠ src → t.peer n = s.peer n)
      ∧ t.book = (if e.uptime.any (fun u => b.uptime < u) = true then s.book.map fun x =>
          if x.cond = .current ∧ x.home = src then
            { x with baselines := x.baselines.filter (fun y => y.1 != src), cond := .stale, staleTimer := none }
          else { x with baselines := x.baselines.filter fun y => y.1 != src }
        else s.book)
      ∧ (t.allot.map fun a => (a.tank, a.peers)) = (s.allot.map fun a => (a.tank,
          if b.fingerprint ≠ s.loader.fingerprint ∧ e.disagreeing = false then
            a.peers.map fun x => if x.station = src then { x with cond := .expired } else x
          else a.peers))
      ∧ (∀ p, (t.getChan p).steady = (s.getChan p).steady) ∧ t.nextRun = s.nextRun ∧ t.spill.zones = s.spill.zones))
  ∧ ∀ (s : State) (n : Nat), s.Ready →
    (∀ e, s.peer n = some e → e.absent = false → 15000 ≤ e.ageMs →
      ∃ t, exec (.peerAbsence n) s = .next t ∧ t.peer n = some { e with absent := true }
        ∧ (∀ m, m ≠ n → t.peer m = s.peer m)
        ∧ (t.allot.map fun a => (a.tank, a.peers)) = (s.allot.map fun a => (a.tank,
          a.peers.map fun x => if x.station = n then { x with cond := .expired } else x))
        ∧ t.book = s.book ∧ t.nextRun = s.nextRun)
    ∧ (∀ e, s.peer n = some e → e.absent = true ∨ e.ageMs < 15000 → exec (.peerAbsence n) s = .next s)
    ∧ (s.peer n = none → exec (.peerAbsence n) s = .next s)

/-- An attempt starts on the oldest slot of the lowest class once the line has been idle for its wait, under the link
sequence number (R165, R172); it ends with the frame sent or broken, and the slot leaves or stays (R172, R173). The model's
choices in it: an ATTEMPT_START after too short an idle time has no effect (log 32), pending content outlives the sixteenth
broken attempt (log 40), and a withdrawn slot leaves with its pending content (log 20). -/
def Obligations.AttemptsFollowTheQueue : Prop :=
  ∀ (s : State), s.Plain → ∀ pre x post, s.link.queue = pre ++ x :: post →
    (∀ idle, s.link.attempt = none → (∀ y ∈ pre, x.cls < y.cls) → (∀ y ∈ post, x.cls ≤ y.cls) →
      (if (match x.cls with | 0 => 20 | 1 => 60 | 2 => 100 | _ => 140) + s.own + 10 * min x.attempts 8 ≤ idle then
        exec (.attemptStart idle) s = .next (s.setLink { s.link with
          queue := pre ++ { x with onLine := true, seq := some (x.seq.getD s.link.seq) } :: post
          seq := if x.seq.isSome then s.link.seq else s.link.seq + 1
          attempt := some ⟨frameBytes s.own (x.seq.getD s.link.seq) x.frame, false⟩ })
      else exec (.attemptStart idle) s = .next s))
    ∧ (∀ a, s.link.attempt = some a → a.orphan = false → x.onLine = true → (∀ y ∈ pre ++ post, y.onLine = false) →
      exec .frameSent s = .next (s.setLink { s.link with
        attempt := none
        queue := match x.withdrawn, x.pending with
          | false, some f => pre ++ { x with frame := f, attempts := 0, onLine := false, pending := none, seq := none } :: post
          | _, _ => pre ++ post })
      ∧ exec .attemptBroken s = .next (s.setLink { s.link with
        attempt := none
        queue := match x.withdrawn, x.pending with
          | true, _ => pre ++ post
          | false, some f => pre ++ { x with frame := f, attempts := 0, onLine := false, pending := none, seq := none } :: post
          | false, none =>
            if x.cls ≠ 0 ∧ 16 ≤ satAdd 255 x.attempts 1 then pre ++ post
            else pre ++ { x with attempts := satAdd 255 x.attempts 1, onLine := false } :: post }))

/-- Each ASK is answered to its sender by the TELLs of its subject's owner, or by TELL NOTHING (R175, R57, R97, R132, R148,
R110, R75); the sticky flags reported are cleared (R97, R149). That parts count from 1, and that TELL NOTHING is part 1, marked
last, is the model's reading (log 23). -/
def Obligations.AsksAreAnsweredByTells : Prop :=
  ∀ (s : State) (src tgt : Nat), s.Ready → s.FromPeer src → s.Named tgt → ∀ s', s.refresh src = s' →
    (∀ p, exec (.askPoint src tgt (pointNum p)) s = .next (s'.queueFrame ⟨src, .tell (.point (pointNum p)) 1 true
      (if (s.zoneOf p).isSome = true then .point (s.pointAnswer p) else .nothing)⟩).finish)
    ∧ (∀ n, pointOf n = none →
      exec (.askPoint src tgt n) s = .next (s'.queueFrame ⟨src, .tell (.point n) 1 true .nothing⟩).finish)
    ∧ (∀ n, ∀ e, s.entry n = some e → ∀ h, s.homeOf n = some h → exec (.askTank src tgt n) s
      = .next ((s'.modHome n fun h => { h with water := { h.water with sticky := false } }).queueFrames
        [⟨src, .tell (.tank n) 1 false (.tank (State.tankAnswer e))⟩,
          ⟨src, .tell (.tank n) 2 true (.home (State.homeAnswer h))⟩]).finish)
    ∧ (∀ n, ∀ e, s.entry n = some e → s.homeOf n = none → exec (.askTank src tgt n) s
      = .next (s'.queueFrame ⟨src, .tell (.tank n) 1 true (.tank (State.tankAnswer e))⟩).finish)
    ∧ (∀ n, s.entry n = none →
      exec (.askTank src tgt n) s = .next (s'.queueFrame ⟨src, .tell (.tank n) 1 true .nothing⟩).finish)
    ∧ (∀ tag, exec (.askAccount src tgt tag) s
      = .next (s'.queueFrame ⟨src, .tell (.account tag) 1 true (s.accountAnswer tag)⟩).finish)
    ∧ (∀ z, ∀ r, s.zoneRec z = some r → ∃ t, exec (.askZone src tgt z) s = .next t
      ∧ t = ((s'.clearSticky z).queueFrames (numberParts src (.zone z) 1 (s.zoneAnswers r))).finish
      ∧ (∀ p, ∀ c, s.pointCfg p = some c → c.zone = z → (t.getHose p).sticky = false)
      ∧ (∀ p, (t.getHose p).wet = (s.getHose p).wet) ∧ t.points = s.points)
    ∧ (∀ z, s.zoneRec z = none →
      exec (.askZone src tgt z) s = .next (s'.queueFrame ⟨src, .tell (.zone z) 1 true .nothing⟩).finish)
    ∧ (∀ n, ∀ h, s.homeOf n = some h → ∀ c, s.tankCfg n = some c → exec (.askRecon src tgt n) s
      = .next (s'.queueFrames (numberParts src (.recon n) 1 (s.reconAnswers h c))).finish)
    ∧ (∀ n, s.homeOf n = none →
      exec (.askRecon src tgt n) s = .next (s'.queueFrame ⟨src, .tell (.recon n) 1 true .nothing⟩).finish)
    ∧ (s.allot = [] → exec (.askPeers src tgt) s = .next (s'.queueFrame ⟨src, .tell .peers 1 true .nothing⟩).finish)
    ∧ (s.allot ≠ [] → exec (.askPeers src tgt) s = .next (s'.queueFrames (s.allot.flatMap fun a =>
      match s.tankCfg a.tank with
      | some c => numberParts src .peers 1 (s.peersAnswers a c)
      | none => [])).finish)

/-- A frame heard is judged by R166: one whose length or CRC fails has no effect; one of a kind the station takes, with a
body its kind allows, has the effect of its command. -/
def Obligations.FramesHeardRunTheirCommand : Prop :=
  ∀ (s : State) (m : List Byte), s.Ready →
    (parseFrame m = none → exec (.frameHeard m) s = .next s)
    ∧ (∀ h, parseFrame m = some h → ∀ c, heardCommand h = some c → exec (.frameHeard m) s = exec c s)
    ∧ (∀ h, parseFrame m = some h → heardCommand h = none → exec (.frameHeard m) s
      = .next (if s.FromPeer h.src then s.refresh h.src else s))

/-- What a station sends is heard by another as what it stands for (R183, R184, R185): SPILL, DRAW, STOCK, SEEK, ACCOUNT
and PRESENCE, with every field at every value its bytes hold. -/
def Obligations.FramesSentAreHeardAsSent : Prop :=
  (∀ (src : Nat) (seq : Byte) (f : Frame), src ≤ 255 → f.target ≤ 255 → f.body.bytes.length ≤ 60 →
    parseFrame (frameBytes src seq f) = some ⟨f.body.kind, src, f.target, f.body.bytes⟩)
  ∧ ∀ (src tgt : Nat),
    (∀ (z : Nat) (k : SourceKind) (i : Nat), z ≤ 255 → i ≤ 255 →
      heardCommand ⟨13, src, tgt, (Body.spill z k i).bytes⟩ = some (.spill src tgt z k i))
    ∧ (∀ (n d f : Nat) (c : Word32), n ≤ 255 → d ≤ 65535 → f ≤ 255 →
      heardCommand ⟨9, src, tgt, (Body.draw n d f c).bytes⟩ = some (.draw src tgt n d f c))
    ∧ (∀ (n v : Nat) (m : Byte) (f : StockFlags) (r : Verdict) (x : Int), n ≤ 255 → v ≤ max32 →
      -2147483648 ≤ x → x ≤ 2147483647 →
      heardCommand ⟨10, src, tgt, (Body.stock n v m f r x).bytes⟩ = some (.stock src tgt n v m f r x))
    ∧ (∀ (t : Tag), t.cls ≤ 63 → t.fleet ≤ 15 → t.unit ≤ 16383 →
      heardCommand ⟨11, src, tgt, (Body.seek t).bytes⟩ = some (.seek src tgt t))
    ∧ (∀ (r : AccountRec), r.tag.cls ≤ 63 → r.tag.fleet ≤ 15 → r.tag.unit ≤ 16383 → r.origin ≤ 255 →
      (r.hoursLast.all fun h => decide (h < max32)) = true → r.unbooked ≤ max32 →
      (r.burnAvg.all fun b => decide (b ≤ max32)) = true → r.burnCount ≤ 255 → r.shift ≤ 65535 →
      r.takenFuel ≤ max32 → r.takenFluid ≤ max32 →
      heardCommand ⟨12, src, tgt, (Body.account r).bytes⟩ = some (.account src tgt r))
    ∧ (∀ (b : PresenceBody), b.uptime ≤ max32 → b.uncollected ≤ 65535 → b.zones.length = 8 → b.points.length = 6 →
      heardCommand ⟨21, src, tgt, (Body.presence b).bytes⟩ = some (.presence src tgt b))
end

