-- ==== Sys2Proof/Laws/State.lean ====
section
/-! SUPPORT. One lemma per field per update of the state, and what the accessors read after an update. -/
namespace Sys2Proof.Machine.State

/-! ### setChan -/

@[simp] theorem setChan_pending (s : State) (p : PointId) (x : Channel) : (s.setChan p x).pending = s.pending := rfl
@[simp] theorem setChan_free (s : State) (p : PointId) (x : Channel) : (s.setChan p x).free = s.free := rfl
@[simp] theorem setChan_marks (s : State) (p : PointId) (x : Channel) : (s.setChan p x).marks = s.marks := rfl
@[simp] theorem setChan_loader (s : State) (p : PointId) (x : Channel) : (s.setChan p x).loader = s.loader := rfl
@[simp] theorem setChan_chans (s : State) (p : PointId) (x : Channel) : (s.setChan p x).chans = s.chans.set p x := rfl
@[simp] theorem setChan_points (s : State) (p : PointId) (x : Channel) : (s.setChan p x).points = s.points := rfl
@[simp] theorem setChan_nextRun (s : State) (p : PointId) (x : Channel) : (s.setChan p x).nextRun = s.nextRun := rfl
@[simp] theorem setChan_allot (s : State) (p : PointId) (x : Channel) : (s.setChan p x).allot = s.allot := rfl
@[simp] theorem setChan_book (s : State) (p : PointId) (x : Channel) : (s.setChan p x).book = s.book := rfl
@[simp] theorem setChan_homes (s : State) (p : PointId) (x : Channel) : (s.setChan p x).homes = s.homes := rfl
@[simp] theorem setChan_accounts (s : State) (p : PointId) (x : Channel) : (s.setChan p x).accounts = s.accounts := rfl
@[simp] theorem setChan_spill (s : State) (p : PointId) (x : Channel) : (s.setChan p x).spill = s.spill := rfl
@[simp] theorem setChan_log (s : State) (p : PointId) (x : Channel) : (s.setChan p x).log = s.log := rfl
@[simp] theorem setChan_link (s : State) (p : PointId) (x : Channel) : (s.setChan p x).link = s.link := rfl

/-! ### setPoint -/

@[simp] theorem setPoint_pending (s : State) (p : PointId) (x : Point) : (s.setPoint p x).pending = s.pending := rfl
@[simp] theorem setPoint_free (s : State) (p : PointId) (x : Point) : (s.setPoint p x).free = s.free := rfl
@[simp] theorem setPoint_marks (s : State) (p : PointId) (x : Point) : (s.setPoint p x).marks = s.marks := rfl
@[simp] theorem setPoint_loader (s : State) (p : PointId) (x : Point) : (s.setPoint p x).loader = s.loader := rfl
@[simp] theorem setPoint_chans (s : State) (p : PointId) (x : Point) : (s.setPoint p x).chans = s.chans := rfl
@[simp] theorem setPoint_points (s : State) (p : PointId) (x : Point) : (s.setPoint p x).points = s.points.set p x := rfl
@[simp] theorem setPoint_nextRun (s : State) (p : PointId) (x : Point) : (s.setPoint p x).nextRun = s.nextRun := rfl
@[simp] theorem setPoint_allot (s : State) (p : PointId) (x : Point) : (s.setPoint p x).allot = s.allot := rfl
@[simp] theorem setPoint_book (s : State) (p : PointId) (x : Point) : (s.setPoint p x).book = s.book := rfl
@[simp] theorem setPoint_homes (s : State) (p : PointId) (x : Point) : (s.setPoint p x).homes = s.homes := rfl
@[simp] theorem setPoint_accounts (s : State) (p : PointId) (x : Point) : (s.setPoint p x).accounts = s.accounts := rfl
@[simp] theorem setPoint_spill (s : State) (p : PointId) (x : Point) : (s.setPoint p x).spill = s.spill := rfl
@[simp] theorem setPoint_log (s : State) (p : PointId) (x : Point) : (s.setPoint p x).log = s.log := rfl
@[simp] theorem setPoint_link (s : State) (p : PointId) (x : Point) : (s.setPoint p x).link = s.link := rfl

/-! ### setLoader -/

@[simp] theorem setLoader_pending (s : State) (x : Loader) : (s.setLoader x).pending = s.pending := rfl
@[simp] theorem setLoader_free (s : State) (x : Loader) : (s.setLoader x).free = s.free := rfl
@[simp] theorem setLoader_marks (s : State) (x : Loader) : (s.setLoader x).marks = s.marks := rfl
@[simp] theorem setLoader_loader (s : State) (x : Loader) : (s.setLoader x).loader = x := rfl
@[simp] theorem setLoader_chans (s : State) (x : Loader) : (s.setLoader x).chans = s.chans := rfl
@[simp] theorem setLoader_points (s : State) (x : Loader) : (s.setLoader x).points = s.points := rfl
@[simp] theorem setLoader_nextRun (s : State) (x : Loader) : (s.setLoader x).nextRun = s.nextRun := rfl
@[simp] theorem setLoader_allot (s : State) (x : Loader) : (s.setLoader x).allot = s.allot := rfl
@[simp] theorem setLoader_book (s : State) (x : Loader) : (s.setLoader x).book = s.book := rfl
@[simp] theorem setLoader_homes (s : State) (x : Loader) : (s.setLoader x).homes = s.homes := rfl
@[simp] theorem setLoader_accounts (s : State) (x : Loader) : (s.setLoader x).accounts = s.accounts := rfl
@[simp] theorem setLoader_spill (s : State) (x : Loader) : (s.setLoader x).spill = s.spill := rfl
@[simp] theorem setLoader_log (s : State) (x : Loader) : (s.setLoader x).log = s.log := rfl
@[simp] theorem setLoader_link (s : State) (x : Loader) : (s.setLoader x).link = s.link := rfl

/-! ### setAllots -/

@[simp] theorem setAllots_pending (s : State) (x : List TankAllot) : (s.setAllots x).pending = s.pending := rfl
@[simp] theorem setAllots_free (s : State) (x : List TankAllot) : (s.setAllots x).free = s.free := rfl
@[simp] theorem setAllots_marks (s : State) (x : List TankAllot) : (s.setAllots x).marks = s.marks := rfl
@[simp] theorem setAllots_loader (s : State) (x : List TankAllot) : (s.setAllots x).loader = s.loader := rfl
@[simp] theorem setAllots_chans (s : State) (x : List TankAllot) : (s.setAllots x).chans = s.chans := rfl
@[simp] theorem setAllots_points (s : State) (x : List TankAllot) : (s.setAllots x).points = s.points := rfl
@[simp] theorem setAllots_nextRun (s : State) (x : List TankAllot) : (s.setAllots x).nextRun = s.nextRun := rfl
@[simp] theorem setAllots_allot (s : State) (x : List TankAllot) : (s.setAllots x).allot = x := rfl
@[simp] theorem setAllots_book (s : State) (x : List TankAllot) : (s.setAllots x).book = s.book := rfl
@[simp] theorem setAllots_homes (s : State) (x : List TankAllot) : (s.setAllots x).homes = s.homes := rfl
@[simp] theorem setAllots_accounts (s : State) (x : List TankAllot) : (s.setAllots x).accounts = s.accounts := rfl
@[simp] theorem setAllots_spill (s : State) (x : List TankAllot) : (s.setAllots x).spill = s.spill := rfl
@[simp] theorem setAllots_log (s : State) (x : List TankAllot) : (s.setAllots x).log = s.log := rfl
@[simp] theorem setAllots_link (s : State) (x : List TankAllot) : (s.setAllots x).link = s.link := rfl

/-! ### setBook -/

@[simp] theorem setBook_pending (s : State) (x : List BookEntry) : (s.setBook x).pending = s.pending := rfl
@[simp] theorem setBook_free (s : State) (x : List BookEntry) : (s.setBook x).free = s.free := rfl
@[simp] theorem setBook_marks (s : State) (x : List BookEntry) : (s.setBook x).marks = s.marks := rfl
@[simp] theorem setBook_loader (s : State) (x : List BookEntry) : (s.setBook x).loader = s.loader := rfl
@[simp] theorem setBook_chans (s : State) (x : List BookEntry) : (s.setBook x).chans = s.chans := rfl
@[simp] theorem setBook_points (s : State) (x : List BookEntry) : (s.setBook x).points = s.points := rfl
@[simp] theorem setBook_nextRun (s : State) (x : List BookEntry) : (s.setBook x).nextRun = s.nextRun := rfl
@[simp] theorem setBook_allot (s : State) (x : List BookEntry) : (s.setBook x).allot = s.allot := rfl
@[simp] theorem setBook_book (s : State) (x : List BookEntry) : (s.setBook x).book = x := rfl
@[simp] theorem setBook_homes (s : State) (x : List BookEntry) : (s.setBook x).homes = s.homes := rfl
@[simp] theorem setBook_accounts (s : State) (x : List BookEntry) : (s.setBook x).accounts = s.accounts := rfl
@[simp] theorem setBook_spill (s : State) (x : List BookEntry) : (s.setBook x).spill = s.spill := rfl
@[simp] theorem setBook_log (s : State) (x : List BookEntry) : (s.setBook x).log = s.log := rfl
@[simp] theorem setBook_link (s : State) (x : List BookEntry) : (s.setBook x).link = s.link := rfl

/-! ### setHomes -/

@[simp] theorem setHomes_pending (s : State) (x : List HomeTank) : (s.setHomes x).pending = s.pending := rfl
@[simp] theorem setHomes_free (s : State) (x : List HomeTank) : (s.setHomes x).free = s.free := rfl
@[simp] theorem setHomes_marks (s : State) (x : List HomeTank) : (s.setHomes x).marks = s.marks := rfl
@[simp] theorem setHomes_loader (s : State) (x : List HomeTank) : (s.setHomes x).loader = s.loader := rfl
@[simp] theorem setHomes_chans (s : State) (x : List HomeTank) : (s.setHomes x).chans = s.chans := rfl
@[simp] theorem setHomes_points (s : State) (x : List HomeTank) : (s.setHomes x).points = s.points := rfl
@[simp] theorem setHomes_nextRun (s : State) (x : List HomeTank) : (s.setHomes x).nextRun = s.nextRun := rfl
@[simp] theorem setHomes_allot (s : State) (x : List HomeTank) : (s.setHomes x).allot = s.allot := rfl
@[simp] theorem setHomes_book (s : State) (x : List HomeTank) : (s.setHomes x).book = s.book := rfl
@[simp] theorem setHomes_homes (s : State) (x : List HomeTank) : (s.setHomes x).homes = x := rfl
@[simp] theorem setHomes_accounts (s : State) (x : List HomeTank) : (s.setHomes x).accounts = s.accounts := rfl
@[simp] theorem setHomes_spill (s : State) (x : List HomeTank) : (s.setHomes x).spill = s.spill := rfl
@[simp] theorem setHomes_log (s : State) (x : List HomeTank) : (s.setHomes x).log = s.log := rfl
@[simp] theorem setHomes_link (s : State) (x : List HomeTank) : (s.setHomes x).link = s.link := rfl

/-! ### setAccounts -/

@[simp] theorem setAccounts_pending (s : State) (x : Accounts) : (s.setAccounts x).pending = s.pending := rfl
@[simp] theorem setAccounts_free (s : State) (x : Accounts) : (s.setAccounts x).free = s.free := rfl
@[simp] theorem setAccounts_marks (s : State) (x : Accounts) : (s.setAccounts x).marks = s.marks := rfl
@[simp] theorem setAccounts_loader (s : State) (x : Accounts) : (s.setAccounts x).loader = s.loader := rfl
@[simp] theorem setAccounts_chans (s : State) (x : Accounts) : (s.setAccounts x).chans = s.chans := rfl
@[simp] theorem setAccounts_points (s : State) (x : Accounts) : (s.setAccounts x).points = s.points := rfl
@[simp] theorem setAccounts_nextRun (s : State) (x : Accounts) : (s.setAccounts x).nextRun = s.nextRun := rfl
@[simp] theorem setAccounts_allot (s : State) (x : Accounts) : (s.setAccounts x).allot = s.allot := rfl
@[simp] theorem setAccounts_book (s : State) (x : Accounts) : (s.setAccounts x).book = s.book := rfl
@[simp] theorem setAccounts_homes (s : State) (x : Accounts) : (s.setAccounts x).homes = s.homes := rfl
@[simp] theorem setAccounts_accounts (s : State) (x : Accounts) : (s.setAccounts x).accounts = x := rfl
@[simp] theorem setAccounts_spill (s : State) (x : Accounts) : (s.setAccounts x).spill = s.spill := rfl
@[simp] theorem setAccounts_log (s : State) (x : Accounts) : (s.setAccounts x).log = s.log := rfl
@[simp] theorem setAccounts_link (s : State) (x : Accounts) : (s.setAccounts x).link = s.link := rfl

/-! ### setSpill -/

@[simp] theorem setSpill_pending (s : State) (x : Spill) : (s.setSpill x).pending = s.pending := rfl
@[simp] theorem setSpill_free (s : State) (x : Spill) : (s.setSpill x).free = s.free := rfl
@[simp] theorem setSpill_marks (s : State) (x : Spill) : (s.setSpill x).marks = s.marks := rfl
@[simp] theorem setSpill_loader (s : State) (x : Spill) : (s.setSpill x).loader = s.loader := rfl
@[simp] theorem setSpill_chans (s : State) (x : Spill) : (s.setSpill x).chans = s.chans := rfl
@[simp] theorem setSpill_points (s : State) (x : Spill) : (s.setSpill x).points = s.points := rfl
@[simp] theorem setSpill_nextRun (s : State) (x : Spill) : (s.setSpill x).nextRun = s.nextRun := rfl
@[simp] theorem setSpill_allot (s : State) (x : Spill) : (s.setSpill x).allot = s.allot := rfl
@[simp] theorem setSpill_book (s : State) (x : Spill) : (s.setSpill x).book = s.book := rfl
@[simp] theorem setSpill_homes (s : State) (x : Spill) : (s.setSpill x).homes = s.homes := rfl
@[simp] theorem setSpill_accounts (s : State) (x : Spill) : (s.setSpill x).accounts = s.accounts := rfl
@[simp] theorem setSpill_spill (s : State) (x : Spill) : (s.setSpill x).spill = x := rfl
@[simp] theorem setSpill_log (s : State) (x : Spill) : (s.setSpill x).log = s.log := rfl
@[simp] theorem setSpill_link (s : State) (x : Spill) : (s.setSpill x).link = s.link := rfl

/-! ### setLog -/

@[simp] theorem setLog_pending (s : State) (x : DeliveryLog) : (s.setLog x).pending = s.pending := rfl
@[simp] theorem setLog_free (s : State) (x : DeliveryLog) : (s.setLog x).free = s.free := rfl
@[simp] theorem setLog_marks (s : State) (x : DeliveryLog) : (s.setLog x).marks = s.marks := rfl
@[simp] theorem setLog_loader (s : State) (x : DeliveryLog) : (s.setLog x).loader = s.loader := rfl
@[simp] theorem setLog_chans (s : State) (x : DeliveryLog) : (s.setLog x).chans = s.chans := rfl
@[simp] theorem setLog_points (s : State) (x : DeliveryLog) : (s.setLog x).points = s.points := rfl
@[simp] theorem setLog_nextRun (s : State) (x : DeliveryLog) : (s.setLog x).nextRun = s.nextRun := rfl
@[simp] theorem setLog_allot (s : State) (x : DeliveryLog) : (s.setLog x).allot = s.allot := rfl
@[simp] theorem setLog_book (s : State) (x : DeliveryLog) : (s.setLog x).book = s.book := rfl
@[simp] theorem setLog_homes (s : State) (x : DeliveryLog) : (s.setLog x).homes = s.homes := rfl
@[simp] theorem setLog_accounts (s : State) (x : DeliveryLog) : (s.setLog x).accounts = s.accounts := rfl
@[simp] theorem setLog_spill (s : State) (x : DeliveryLog) : (s.setLog x).spill = s.spill := rfl
@[simp] theorem setLog_log (s : State) (x : DeliveryLog) : (s.setLog x).log = x := rfl
@[simp] theorem setLog_link (s : State) (x : DeliveryLog) : (s.setLog x).link = s.link := rfl

/-! ### setLink -/

@[simp] theorem setLink_pending (s : State) (x : Link) : (s.setLink x).pending = s.pending := rfl
@[simp] theorem setLink_free (s : State) (x : Link) : (s.setLink x).free = s.free := rfl
@[simp] theorem setLink_marks (s : State) (x : Link) : (s.setLink x).marks = s.marks := rfl
@[simp] theorem setLink_loader (s : State) (x : Link) : (s.setLink x).loader = s.loader := rfl
@[simp] theorem setLink_chans (s : State) (x : Link) : (s.setLink x).chans = s.chans := rfl
@[simp] theorem setLink_points (s : State) (x : Link) : (s.setLink x).points = s.points := rfl
@[simp] theorem setLink_nextRun (s : State) (x : Link) : (s.setLink x).nextRun = s.nextRun := rfl
@[simp] theorem setLink_allot (s : State) (x : Link) : (s.setLink x).allot = s.allot := rfl
@[simp] theorem setLink_book (s : State) (x : Link) : (s.setLink x).book = s.book := rfl
@[simp] theorem setLink_homes (s : State) (x : Link) : (s.setLink x).homes = s.homes := rfl
@[simp] theorem setLink_accounts (s : State) (x : Link) : (s.setLink x).accounts = s.accounts := rfl
@[simp] theorem setLink_spill (s : State) (x : Link) : (s.setLink x).spill = s.spill := rfl
@[simp] theorem setLink_log (s : State) (x : Link) : (s.setLink x).log = s.log := rfl
@[simp] theorem setLink_link (s : State) (x : Link) : (s.setLink x).link = x := rfl

/-! ### setMarks -/

@[simp] theorem setMarks_pending (s : State) (x : EventMarks) : (s.setMarks x).pending = s.pending := rfl
@[simp] theorem setMarks_free (s : State) (x : EventMarks) : (s.setMarks x).free = s.free := rfl
@[simp] theorem setMarks_marks (s : State) (x : EventMarks) : (s.setMarks x).marks = x := rfl
@[simp] theorem setMarks_loader (s : State) (x : EventMarks) : (s.setMarks x).loader = s.loader := rfl
@[simp] theorem setMarks_chans (s : State) (x : EventMarks) : (s.setMarks x).chans = s.chans := rfl
@[simp] theorem setMarks_points (s : State) (x : EventMarks) : (s.setMarks x).points = s.points := rfl
@[simp] theorem setMarks_nextRun (s : State) (x : EventMarks) : (s.setMarks x).nextRun = s.nextRun := rfl
@[simp] theorem setMarks_allot (s : State) (x : EventMarks) : (s.setMarks x).allot = s.allot := rfl
@[simp] theorem setMarks_book (s : State) (x : EventMarks) : (s.setMarks x).book = s.book := rfl
@[simp] theorem setMarks_homes (s : State) (x : EventMarks) : (s.setMarks x).homes = s.homes := rfl
@[simp] theorem setMarks_accounts (s : State) (x : EventMarks) : (s.setMarks x).accounts = s.accounts := rfl
@[simp] theorem setMarks_spill (s : State) (x : EventMarks) : (s.setMarks x).spill = s.spill := rfl
@[simp] theorem setMarks_log (s : State) (x : EventMarks) : (s.setMarks x).log = s.log := rfl
@[simp] theorem setMarks_link (s : State) (x : EventMarks) : (s.setMarks x).link = s.link := rfl

/-! ### setFree -/

@[simp] theorem setFree_pending (s : State) (x : Nat) : (s.setFree x).pending = s.pending := rfl
@[simp] theorem setFree_free (s : State) (x : Nat) : (s.setFree x).free = x := rfl
@[simp] theorem setFree_marks (s : State) (x : Nat) : (s.setFree x).marks = s.marks := rfl
@[simp] theorem setFree_loader (s : State) (x : Nat) : (s.setFree x).loader = s.loader := rfl
@[simp] theorem setFree_chans (s : State) (x : Nat) : (s.setFree x).chans = s.chans := rfl
@[simp] theorem setFree_points (s : State) (x : Nat) : (s.setFree x).points = s.points := rfl
@[simp] theorem setFree_nextRun (s : State) (x : Nat) : (s.setFree x).nextRun = s.nextRun := rfl
@[simp] theorem setFree_allot (s : State) (x : Nat) : (s.setFree x).allot = s.allot := rfl
@[simp] theorem setFree_book (s : State) (x : Nat) : (s.setFree x).book = s.book := rfl
@[simp] theorem setFree_homes (s : State) (x : Nat) : (s.setFree x).homes = s.homes := rfl
@[simp] theorem setFree_accounts (s : State) (x : Nat) : (s.setFree x).accounts = s.accounts := rfl
@[simp] theorem setFree_spill (s : State) (x : Nat) : (s.setFree x).spill = s.spill := rfl
@[simp] theorem setFree_log (s : State) (x : Nat) : (s.setFree x).log = s.log := rfl
@[simp] theorem setFree_link (s : State) (x : Nat) : (s.setFree x).link = s.link := rfl

/-! ### setNextRun -/

@[simp] theorem setNextRun_pending (s : State) (x : Nat) : (s.setNextRun x).pending = s.pending := rfl
@[simp] theorem setNextRun_free (s : State) (x : Nat) : (s.setNextRun x).free = s.free := rfl
@[simp] theorem setNextRun_marks (s : State) (x : Nat) : (s.setNextRun x).marks = s.marks := rfl
@[simp] theorem setNextRun_loader (s : State) (x : Nat) : (s.setNextRun x).loader = s.loader := rfl
@[simp] theorem setNextRun_chans (s : State) (x : Nat) : (s.setNextRun x).chans = s.chans := rfl
@[simp] theorem setNextRun_points (s : State) (x : Nat) : (s.setNextRun x).points = s.points := rfl
@[simp] theorem setNextRun_nextRun (s : State) (x : Nat) : (s.setNextRun x).nextRun = x := rfl
@[simp] theorem setNextRun_allot (s : State) (x : Nat) : (s.setNextRun x).allot = s.allot := rfl
@[simp] theorem setNextRun_book (s : State) (x : Nat) : (s.setNextRun x).book = s.book := rfl
@[simp] theorem setNextRun_homes (s : State) (x : Nat) : (s.setNextRun x).homes = s.homes := rfl
@[simp] theorem setNextRun_accounts (s : State) (x : Nat) : (s.setNextRun x).accounts = s.accounts := rfl
@[simp] theorem setNextRun_spill (s : State) (x : Nat) : (s.setNextRun x).spill = s.spill := rfl
@[simp] theorem setNextRun_log (s : State) (x : Nat) : (s.setNextRun x).log = s.log := rfl
@[simp] theorem setNextRun_link (s : State) (x : Nat) : (s.setNextRun x).link = s.link := rfl

/-! ### setPresence -/

@[simp] theorem setPresence_pending (s : State) (x : List PresenceEntry) : (s.setPresence x).pending = s.pending := rfl
@[simp] theorem setPresence_free (s : State) (x : List PresenceEntry) : (s.setPresence x).free = s.free := rfl
@[simp] theorem setPresence_marks (s : State) (x : List PresenceEntry) : (s.setPresence x).marks = s.marks := rfl
@[simp] theorem setPresence_loader (s : State) (x : List PresenceEntry) : (s.setPresence x).loader = s.loader := rfl
@[simp] theorem setPresence_chans (s : State) (x : List PresenceEntry) : (s.setPresence x).chans = s.chans := rfl
@[simp] theorem setPresence_points (s : State) (x : List PresenceEntry) : (s.setPresence x).points = s.points := rfl
@[simp] theorem setPresence_nextRun (s : State) (x : List PresenceEntry) : (s.setPresence x).nextRun = s.nextRun := rfl
@[simp] theorem setPresence_allot (s : State) (x : List PresenceEntry) : (s.setPresence x).allot = s.allot := rfl
@[simp] theorem setPresence_book (s : State) (x : List PresenceEntry) : (s.setPresence x).book = s.book := rfl
@[simp] theorem setPresence_homes (s : State) (x : List PresenceEntry) : (s.setPresence x).homes = s.homes := rfl
@[simp] theorem setPresence_accounts (s : State) (x : List PresenceEntry) : (s.setPresence x).accounts = s.accounts := rfl
@[simp] theorem setPresence_spill (s : State) (x : List PresenceEntry) : (s.setPresence x).spill = s.spill := rfl
@[simp] theorem setPresence_log (s : State) (x : List PresenceEntry) : (s.setPresence x).log = s.log := rfl
@[simp] theorem setPresence_link (s : State) (x : List PresenceEntry) : (s.setPresence x).link = { s.link with presence := x } := rfl

/-! ### setQueue -/

@[simp] theorem setQueue_pending (s : State) (x : List Slot) : (s.setQueue x).pending = s.pending := rfl
@[simp] theorem setQueue_free (s : State) (x : List Slot) : (s.setQueue x).free = s.free := rfl
@[simp] theorem setQueue_marks (s : State) (x : List Slot) : (s.setQueue x).marks = s.marks := rfl
@[simp] theorem setQueue_loader (s : State) (x : List Slot) : (s.setQueue x).loader = s.loader := rfl
@[simp] theorem setQueue_chans (s : State) (x : List Slot) : (s.setQueue x).chans = s.chans := rfl
@[simp] theorem setQueue_points (s : State) (x : List Slot) : (s.setQueue x).points = s.points := rfl
@[simp] theorem setQueue_nextRun (s : State) (x : List Slot) : (s.setQueue x).nextRun = s.nextRun := rfl
@[simp] theorem setQueue_allot (s : State) (x : List Slot) : (s.setQueue x).allot = s.allot := rfl
@[simp] theorem setQueue_book (s : State) (x : List Slot) : (s.setQueue x).book = s.book := rfl
@[simp] theorem setQueue_homes (s : State) (x : List Slot) : (s.setQueue x).homes = s.homes := rfl
@[simp] theorem setQueue_accounts (s : State) (x : List Slot) : (s.setQueue x).accounts = s.accounts := rfl
@[simp] theorem setQueue_spill (s : State) (x : List Slot) : (s.setQueue x).spill = s.spill := rfl
@[simp] theorem setQueue_log (s : State) (x : List Slot) : (s.setQueue x).log = s.log := rfl
@[simp] theorem setQueue_link (s : State) (x : List Slot) : (s.setQueue x).link = { s.link with queue := x } := rfl

/-! ### setCollection -/

@[simp] theorem setCollection_pending (s : State) (x : Option Collection) : (s.setCollection x).pending = s.pending := rfl
@[simp] theorem setCollection_free (s : State) (x : Option Collection) : (s.setCollection x).free = s.free := rfl
@[simp] theorem setCollection_marks (s : State) (x : Option Collection) : (s.setCollection x).marks = s.marks := rfl
@[simp] theorem setCollection_loader (s : State) (x : Option Collection) : (s.setCollection x).loader = s.loader := rfl
@[simp] theorem setCollection_chans (s : State) (x : Option Collection) : (s.setCollection x).chans = s.chans := rfl
@[simp] theorem setCollection_points (s : State) (x : Option Collection) : (s.setCollection x).points = s.points := rfl
@[simp] theorem setCollection_nextRun (s : State) (x : Option Collection) : (s.setCollection x).nextRun = s.nextRun := rfl
@[simp] theorem setCollection_allot (s : State) (x : Option Collection) : (s.setCollection x).allot = s.allot := rfl
@[simp] theorem setCollection_book (s : State) (x : Option Collection) : (s.setCollection x).book = s.book := rfl
@[simp] theorem setCollection_homes (s : State) (x : Option Collection) : (s.setCollection x).homes = s.homes := rfl
@[simp] theorem setCollection_accounts (s : State) (x : Option Collection) : (s.setCollection x).accounts = s.accounts := rfl
@[simp] theorem setCollection_spill (s : State) (x : Option Collection) : (s.setCollection x).spill = s.spill := rfl
@[simp] theorem setCollection_log (s : State) (x : Option Collection) : (s.setCollection x).log = { s.log with collection := x } := rfl
@[simp] theorem setCollection_link (s : State) (x : Option Collection) : (s.setCollection x).link = s.link := rfl

/-! ### setCache -/

@[simp] theorem setCache_pending (s : State) (x : List CacheRec) : (s.setCache x).pending = s.pending := rfl
@[simp] theorem setCache_free (s : State) (x : List CacheRec) : (s.setCache x).free = s.free := rfl
@[simp] theorem setCache_marks (s : State) (x : List CacheRec) : (s.setCache x).marks = s.marks := rfl
@[simp] theorem setCache_loader (s : State) (x : List CacheRec) : (s.setCache x).loader = s.loader := rfl
@[simp] theorem setCache_chans (s : State) (x : List CacheRec) : (s.setCache x).chans = s.chans := rfl
@[simp] theorem setCache_points (s : State) (x : List CacheRec) : (s.setCache x).points = s.points := rfl
@[simp] theorem setCache_nextRun (s : State) (x : List CacheRec) : (s.setCache x).nextRun = s.nextRun := rfl
@[simp] theorem setCache_allot (s : State) (x : List CacheRec) : (s.setCache x).allot = s.allot := rfl
@[simp] theorem setCache_book (s : State) (x : List CacheRec) : (s.setCache x).book = s.book := rfl
@[simp] theorem setCache_homes (s : State) (x : List CacheRec) : (s.setCache x).homes = s.homes := rfl
@[simp] theorem setCache_accounts (s : State) (x : List CacheRec) : (s.setCache x).accounts = { s.accounts with cache := x } := rfl
@[simp] theorem setCache_spill (s : State) (x : List CacheRec) : (s.setCache x).spill = s.spill := rfl
@[simp] theorem setCache_log (s : State) (x : List CacheRec) : (s.setCache x).log = s.log := rfl
@[simp] theorem setCache_link (s : State) (x : List CacheRec) : (s.setCache x).link = s.link := rfl

/-! ### setSeeks -/

@[simp] theorem setSeeks_pending (s : State) (x : List Seek) : (s.setSeeks x).pending = s.pending := rfl
@[simp] theorem setSeeks_free (s : State) (x : List Seek) : (s.setSeeks x).free = s.free := rfl
@[simp] theorem setSeeks_marks (s : State) (x : List Seek) : (s.setSeeks x).marks = s.marks := rfl
@[simp] theorem setSeeks_loader (s : State) (x : List Seek) : (s.setSeeks x).loader = s.loader := rfl
@[simp] theorem setSeeks_chans (s : State) (x : List Seek) : (s.setSeeks x).chans = s.chans := rfl
@[simp] theorem setSeeks_points (s : State) (x : List Seek) : (s.setSeeks x).points = s.points := rfl
@[simp] theorem setSeeks_nextRun (s : State) (x : List Seek) : (s.setSeeks x).nextRun = s.nextRun := rfl
@[simp] theorem setSeeks_allot (s : State) (x : List Seek) : (s.setSeeks x).allot = s.allot := rfl
@[simp] theorem setSeeks_book (s : State) (x : List Seek) : (s.setSeeks x).book = s.book := rfl
@[simp] theorem setSeeks_homes (s : State) (x : List Seek) : (s.setSeeks x).homes = s.homes := rfl
@[simp] theorem setSeeks_accounts (s : State) (x : List Seek) : (s.setSeeks x).accounts = { s.accounts with seeks := x } := rfl
@[simp] theorem setSeeks_spill (s : State) (x : List Seek) : (s.setSeeks x).spill = s.spill := rfl
@[simp] theorem setSeeks_log (s : State) (x : List Seek) : (s.setSeeks x).log = s.log := rfl
@[simp] theorem setSeeks_link (s : State) (x : List Seek) : (s.setSeeks x).link = s.link := rfl

/-! ### modPoint -/

@[simp] theorem modPoint_pending (s : State) (p : PointId) (f : Point → Point) : (s.modPoint p f).pending = s.pending := rfl
@[simp] theorem modPoint_free (s : State) (p : PointId) (f : Point → Point) : (s.modPoint p f).free = s.free := rfl
@[simp] theorem modPoint_marks (s : State) (p : PointId) (f : Point → Point) : (s.modPoint p f).marks = s.marks := rfl
@[simp] theorem modPoint_loader (s : State) (p : PointId) (f : Point → Point) : (s.modPoint p f).loader = s.loader := rfl
@[simp] theorem modPoint_chans (s : State) (p : PointId) (f : Point → Point) : (s.modPoint p f).chans = s.chans := rfl
@[simp] theorem modPoint_points (s : State) (p : PointId) (f : Point → Point) : (s.modPoint p f).points = s.points.set p (f (s.getPoint p)) := rfl
@[simp] theorem modPoint_nextRun (s : State) (p : PointId) (f : Point → Point) : (s.modPoint p f).nextRun = s.nextRun := rfl
@[simp] theorem modPoint_allot (s : State) (p : PointId) (f : Point → Point) : (s.modPoint p f).allot = s.allot := rfl
@[simp] theorem modPoint_book (s : State) (p : PointId) (f : Point → Point) : (s.modPoint p f).book = s.book := rfl
@[simp] theorem modPoint_homes (s : State) (p : PointId) (f : Point → Point) : (s.modPoint p f).homes = s.homes := rfl
@[simp] theorem modPoint_accounts (s : State) (p : PointId) (f : Point → Point) : (s.modPoint p f).accounts = s.accounts := rfl
@[simp] theorem modPoint_spill (s : State) (p : PointId) (f : Point → Point) : (s.modPoint p f).spill = s.spill := rfl
@[simp] theorem modPoint_log (s : State) (p : PointId) (f : Point → Point) : (s.modPoint p f).log = s.log := rfl
@[simp] theorem modPoint_link (s : State) (p : PointId) (f : Point → Point) : (s.modPoint p f).link = s.link := rfl

/-! ### modChan -/

@[simp] theorem modChan_pending (s : State) (p : PointId) (f : Channel → Channel) : (s.modChan p f).pending = s.pending := rfl
@[simp] theorem modChan_free (s : State) (p : PointId) (f : Channel → Channel) : (s.modChan p f).free = s.free := rfl
@[simp] theorem modChan_marks (s : State) (p : PointId) (f : Channel → Channel) : (s.modChan p f).marks = s.marks := rfl
@[simp] theorem modChan_loader (s : State) (p : PointId) (f : Channel → Channel) : (s.modChan p f).loader = s.loader := rfl
@[simp] theorem modChan_chans (s : State) (p : PointId) (f : Channel → Channel) : (s.modChan p f).chans = s.chans.set p (f (s.getChan p)) := rfl
@[simp] theorem modChan_points (s : State) (p : PointId) (f : Channel → Channel) : (s.modChan p f).points = s.points := rfl
@[simp] theorem modChan_nextRun (s : State) (p : PointId) (f : Channel → Channel) : (s.modChan p f).nextRun = s.nextRun := rfl
@[simp] theorem modChan_allot (s : State) (p : PointId) (f : Channel → Channel) : (s.modChan p f).allot = s.allot := rfl
@[simp] theorem modChan_book (s : State) (p : PointId) (f : Channel → Channel) : (s.modChan p f).book = s.book := rfl
@[simp] theorem modChan_homes (s : State) (p : PointId) (f : Channel → Channel) : (s.modChan p f).homes = s.homes := rfl
@[simp] theorem modChan_accounts (s : State) (p : PointId) (f : Channel → Channel) : (s.modChan p f).accounts = s.accounts := rfl
@[simp] theorem modChan_spill (s : State) (p : PointId) (f : Channel → Channel) : (s.modChan p f).spill = s.spill := rfl
@[simp] theorem modChan_log (s : State) (p : PointId) (f : Channel → Channel) : (s.modChan p f).log = s.log := rfl
@[simp] theorem modChan_link (s : State) (p : PointId) (f : Channel → Channel) : (s.modChan p f).link = s.link := rfl

/-! ### modEntry -/

@[simp] theorem modEntry_pending (s : State) (n : Nat) (f : BookEntry → BookEntry) : (s.modEntry n f).pending = s.pending := rfl
@[simp] theorem modEntry_free (s : State) (n : Nat) (f : BookEntry → BookEntry) : (s.modEntry n f).free = s.free := rfl
@[simp] theorem modEntry_marks (s : State) (n : Nat) (f : BookEntry → BookEntry) : (s.modEntry n f).marks = s.marks := rfl
@[simp] theorem modEntry_loader (s : State) (n : Nat) (f : BookEntry → BookEntry) : (s.modEntry n f).loader = s.loader := rfl
@[simp] theorem modEntry_chans (s : State) (n : Nat) (f : BookEntry → BookEntry) : (s.modEntry n f).chans = s.chans := rfl
@[simp] theorem modEntry_points (s : State) (n : Nat) (f : BookEntry → BookEntry) : (s.modEntry n f).points = s.points := rfl
@[simp] theorem modEntry_nextRun (s : State) (n : Nat) (f : BookEntry → BookEntry) : (s.modEntry n f).nextRun = s.nextRun := rfl
@[simp] theorem modEntry_allot (s : State) (n : Nat) (f : BookEntry → BookEntry) : (s.modEntry n f).allot = s.allot := rfl
@[simp] theorem modEntry_book (s : State) (n : Nat) (f : BookEntry → BookEntry) : (s.modEntry n f).book = modWhere (·.tank == n) f s.book := rfl
@[simp] theorem modEntry_homes (s : State) (n : Nat) (f : BookEntry → BookEntry) : (s.modEntry n f).homes = s.homes := rfl
@[simp] theorem modEntry_accounts (s : State) (n : Nat) (f : BookEntry → BookEntry) : (s.modEntry n f).accounts = s.accounts := rfl
@[simp] theorem modEntry_spill (s : State) (n : Nat) (f : BookEntry → BookEntry) : (s.modEntry n f).spill = s.spill := rfl
@[simp] theorem modEntry_log (s : State) (n : Nat) (f : BookEntry → BookEntry) : (s.modEntry n f).log = s.log := rfl
@[simp] theorem modEntry_link (s : State) (n : Nat) (f : BookEntry → BookEntry) : (s.modEntry n f).link = s.link := rfl

/-! ### modAllot -/

@[simp] theorem modAllot_pending (s : State) (n : Nat) (f : TankAllot → TankAllot) : (s.modAllot n f).pending = s.pending := rfl
@[simp] theorem modAllot_free (s : State) (n : Nat) (f : TankAllot → TankAllot) : (s.modAllot n f).free = s.free := rfl
@[simp] theorem modAllot_marks (s : State) (n : Nat) (f : TankAllot → TankAllot) : (s.modAllot n f).marks = s.marks := rfl
@[simp] theorem modAllot_loader (s : State) (n : Nat) (f : TankAllot → TankAllot) : (s.modAllot n f).loader = s.loader := rfl
@[simp] theorem modAllot_chans (s : State) (n : Nat) (f : TankAllot → TankAllot) : (s.modAllot n f).chans = s.chans := rfl
@[simp] theorem modAllot_points (s : State) (n : Nat) (f : TankAllot → TankAllot) : (s.modAllot n f).points = s.points := rfl
@[simp] theorem modAllot_nextRun (s : State) (n : Nat) (f : TankAllot → TankAllot) : (s.modAllot n f).nextRun = s.nextRun := rfl
@[simp] theorem modAllot_allot (s : State) (n : Nat) (f : TankAllot → TankAllot) : (s.modAllot n f).allot = modWhere (·.tank == n) f s.allot := rfl
@[simp] theorem modAllot_book (s : State) (n : Nat) (f : TankAllot → TankAllot) : (s.modAllot n f).book = s.book := rfl
@[simp] theorem modAllot_homes (s : State) (n : Nat) (f : TankAllot → TankAllot) : (s.modAllot n f).homes = s.homes := rfl
@[simp] theorem modAllot_accounts (s : State) (n : Nat) (f : TankAllot → TankAllot) : (s.modAllot n f).accounts = s.accounts := rfl
@[simp] theorem modAllot_spill (s : State) (n : Nat) (f : TankAllot → TankAllot) : (s.modAllot n f).spill = s.spill := rfl
@[simp] theorem modAllot_log (s : State) (n : Nat) (f : TankAllot → TankAllot) : (s.modAllot n f).log = s.log := rfl
@[simp] theorem modAllot_link (s : State) (n : Nat) (f : TankAllot → TankAllot) : (s.modAllot n f).link = s.link := rfl

/-! ### modHome -/

@[simp] theorem modHome_pending (s : State) (n : Nat) (f : HomeTank → HomeTank) : (s.modHome n f).pending = s.pending := rfl
@[simp] theorem modHome_free (s : State) (n : Nat) (f : HomeTank → HomeTank) : (s.modHome n f).free = s.free := rfl
@[simp] theorem modHome_marks (s : State) (n : Nat) (f : HomeTank → HomeTank) : (s.modHome n f).marks = s.marks := rfl
@[simp] theorem modHome_loader (s : State) (n : Nat) (f : HomeTank → HomeTank) : (s.modHome n f).loader = s.loader := rfl
@[simp] theorem modHome_chans (s : State) (n : Nat) (f : HomeTank → HomeTank) : (s.modHome n f).chans = s.chans := rfl
@[simp] theorem modHome_points (s : State) (n : Nat) (f : HomeTank → HomeTank) : (s.modHome n f).points = s.points := rfl
@[simp] theorem modHome_nextRun (s : State) (n : Nat) (f : HomeTank → HomeTank) : (s.modHome n f).nextRun = s.nextRun := rfl
@[simp] theorem modHome_allot (s : State) (n : Nat) (f : HomeTank → HomeTank) : (s.modHome n f).allot = s.allot := rfl
@[simp] theorem modHome_book (s : State) (n : Nat) (f : HomeTank → HomeTank) : (s.modHome n f).book = s.book := rfl
@[simp] theorem modHome_homes (s : State) (n : Nat) (f : HomeTank → HomeTank) : (s.modHome n f).homes = modWhere (·.tank == n) f s.homes := rfl
@[simp] theorem modHome_accounts (s : State) (n : Nat) (f : HomeTank → HomeTank) : (s.modHome n f).accounts = s.accounts := rfl
@[simp] theorem modHome_spill (s : State) (n : Nat) (f : HomeTank → HomeTank) : (s.modHome n f).spill = s.spill := rfl
@[simp] theorem modHome_log (s : State) (n : Nat) (f : HomeTank → HomeTank) : (s.modHome n f).log = s.log := rfl
@[simp] theorem modHome_link (s : State) (n : Nat) (f : HomeTank → HomeTank) : (s.modHome n f).link = s.link := rfl

/-! ### modZone -/

@[simp] theorem modZone_pending (s : State) (n : Nat) (f : ZoneRec → ZoneRec) : (s.modZone n f).pending = s.pending := rfl
@[simp] theorem modZone_free (s : State) (n : Nat) (f : ZoneRec → ZoneRec) : (s.modZone n f).free = s.free := rfl
@[simp] theorem modZone_marks (s : State) (n : Nat) (f : ZoneRec → ZoneRec) : (s.modZone n f).marks = s.marks := rfl
@[simp] theorem modZone_loader (s : State) (n : Nat) (f : ZoneRec → ZoneRec) : (s.modZone n f).loader = s.loader := rfl
@[simp] theorem modZone_chans (s : State) (n : Nat) (f : ZoneRec → ZoneRec) : (s.modZone n f).chans = s.chans := rfl
@[simp] theorem modZone_points (s : State) (n : Nat) (f : ZoneRec → ZoneRec) : (s.modZone n f).points = s.points := rfl
@[simp] theorem modZone_nextRun (s : State) (n : Nat) (f : ZoneRec → ZoneRec) : (s.modZone n f).nextRun = s.nextRun := rfl
@[simp] theorem modZone_allot (s : State) (n : Nat) (f : ZoneRec → ZoneRec) : (s.modZone n f).allot = s.allot := rfl
@[simp] theorem modZone_book (s : State) (n : Nat) (f : ZoneRec → ZoneRec) : (s.modZone n f).book = s.book := rfl
@[simp] theorem modZone_homes (s : State) (n : Nat) (f : ZoneRec → ZoneRec) : (s.modZone n f).homes = s.homes := rfl
@[simp] theorem modZone_accounts (s : State) (n : Nat) (f : ZoneRec → ZoneRec) : (s.modZone n f).accounts = s.accounts := rfl
@[simp] theorem modZone_spill (s : State) (n : Nat) (f : ZoneRec → ZoneRec) : (s.modZone n f).spill = { s.spill with zones := modWhere (·.zone == n) f s.spill.zones } := rfl
@[simp] theorem modZone_log (s : State) (n : Nat) (f : ZoneRec → ZoneRec) : (s.modZone n f).log = s.log := rfl
@[simp] theorem modZone_link (s : State) (n : Nat) (f : ZoneRec → ZoneRec) : (s.modZone n f).link = s.link := rfl

/-! ### setHose -/

@[simp] theorem setHose_pending (s : State) (p : PointId) (x : HoseSource) : (s.setHose p x).pending = s.pending := rfl
@[simp] theorem setHose_free (s : State) (p : PointId) (x : HoseSource) : (s.setHose p x).free = s.free := rfl
@[simp] theorem setHose_marks (s : State) (p : PointId) (x : HoseSource) : (s.setHose p x).marks = s.marks := rfl
@[simp] theorem setHose_loader (s : State) (p : PointId) (x : HoseSource) : (s.setHose p x).loader = s.loader := rfl
@[simp] theorem setHose_chans (s : State) (p : PointId) (x : HoseSource) : (s.setHose p x).chans = s.chans := rfl
@[simp] theorem setHose_points (s : State) (p : PointId) (x : HoseSource) : (s.setHose p x).points = s.points := rfl
@[simp] theorem setHose_nextRun (s : State) (p : PointId) (x : HoseSource) : (s.setHose p x).nextRun = s.nextRun := rfl
@[simp] theorem setHose_allot (s : State) (p : PointId) (x : HoseSource) : (s.setHose p x).allot = s.allot := rfl
@[simp] theorem setHose_book (s : State) (p : PointId) (x : HoseSource) : (s.setHose p x).book = s.book := rfl
@[simp] theorem setHose_homes (s : State) (p : PointId) (x : HoseSource) : (s.setHose p x).homes = s.homes := rfl
@[simp] theorem setHose_accounts (s : State) (p : PointId) (x : HoseSource) : (s.setHose p x).accounts = s.accounts := rfl
@[simp] theorem setHose_spill (s : State) (p : PointId) (x : HoseSource) : (s.setHose p x).spill = { s.spill with hose := s.spill.hose.set p x } := rfl
@[simp] theorem setHose_log (s : State) (p : PointId) (x : HoseSource) : (s.setHose p x).log = s.log := rfl
@[simp] theorem setHose_link (s : State) (p : PointId) (x : HoseSource) : (s.setHose p x).link = s.link := rfl

/-! ### The accessors after an update of another block -/

@[simp] theorem getPoint_setChan (s : State) (p : PointId) (x : Channel) (q : PointId) : (s.setChan p x).getPoint q = s.getPoint q := rfl
@[simp] theorem getHose_setChan (s : State) (p : PointId) (x : Channel) (q : PointId) : (s.setChan p x).getHose q = s.getHose q := rfl
@[simp] theorem own_setChan (s : State) (p : PointId) (x : Channel) : (s.setChan p x).own = s.own := rfl
@[simp] theorem up_setChan (s : State) (p : PointId) (x : Channel) : (s.setChan p x).up = s.up := rfl
@[simp] theorem cfg_setChan (s : State) (p : PointId) (x : Channel) : (s.setChan p x).cfg = s.cfg := rfl
@[simp] theorem pointCfg_setChan (s : State) (p : PointId) (x : Channel) (q : PointId) : (s.setChan p x).pointCfg q = s.pointCfg q := rfl
@[simp] theorem tankCfg_setChan (s : State) (p : PointId) (x : Channel) (m : Nat) : (s.setChan p x).tankCfg m = s.tankCfg m := rfl
@[simp] theorem entry_setChan (s : State) (p : PointId) (x : Channel) (m : Nat) : (s.setChan p x).entry m = s.entry m := rfl
@[simp] theorem tankAllot_setChan (s : State) (p : PointId) (x : Channel) (m : Nat) : (s.setChan p x).tankAllot m = s.tankAllot m := rfl
@[simp] theorem homeOf_setChan (s : State) (p : PointId) (x : Channel) (m : Nat) : (s.setChan p x).homeOf m = s.homeOf m := rfl
@[simp] theorem zoneRec_setChan (s : State) (p : PointId) (x : Channel) (m : Nat) : (s.setChan p x).zoneRec m = s.zoneRec m := rfl
@[simp] theorem getChan_setPoint (s : State) (p : PointId) (x : Point) (q : PointId) : (s.setPoint p x).getChan q = s.getChan q := rfl
@[simp] theorem getHose_setPoint (s : State) (p : PointId) (x : Point) (q : PointId) : (s.setPoint p x).getHose q = s.getHose q := rfl
@[simp] theorem own_setPoint (s : State) (p : PointId) (x : Point) : (s.setPoint p x).own = s.own := rfl
@[simp] theorem up_setPoint (s : State) (p : PointId) (x : Point) : (s.setPoint p x).up = s.up := rfl
@[simp] theorem cfg_setPoint (s : State) (p : PointId) (x : Point) : (s.setPoint p x).cfg = s.cfg := rfl
@[simp] theorem pointCfg_setPoint (s : State) (p : PointId) (x : Point) (q : PointId) : (s.setPoint p x).pointCfg q = s.pointCfg q := rfl
@[simp] theorem tankCfg_setPoint (s : State) (p : PointId) (x : Point) (m : Nat) : (s.setPoint p x).tankCfg m = s.tankCfg m := rfl
@[simp] theorem entry_setPoint (s : State) (p : PointId) (x : Point) (m : Nat) : (s.setPoint p x).entry m = s.entry m := rfl
@[simp] theorem tankAllot_setPoint (s : State) (p : PointId) (x : Point) (m : Nat) : (s.setPoint p x).tankAllot m = s.tankAllot m := rfl
@[simp] theorem homeOf_setPoint (s : State) (p : PointId) (x : Point) (m : Nat) : (s.setPoint p x).homeOf m = s.homeOf m := rfl
@[simp] theorem zoneRec_setPoint (s : State) (p : PointId) (x : Point) (m : Nat) : (s.setPoint p x).zoneRec m = s.zoneRec m := rfl
@[simp] theorem getPoint_setLoader (s : State) (x : Loader) (q : PointId) : (s.setLoader x).getPoint q = s.getPoint q := rfl
@[simp] theorem getChan_setLoader (s : State) (x : Loader) (q : PointId) : (s.setLoader x).getChan q = s.getChan q := rfl
@[simp] theorem getHose_setLoader (s : State) (x : Loader) (q : PointId) : (s.setLoader x).getHose q = s.getHose q := rfl
@[simp] theorem entry_setLoader (s : State) (x : Loader) (m : Nat) : (s.setLoader x).entry m = s.entry m := rfl
@[simp] theorem tankAllot_setLoader (s : State) (x : Loader) (m : Nat) : (s.setLoader x).tankAllot m = s.tankAllot m := rfl
@[simp] theorem homeOf_setLoader (s : State) (x : Loader) (m : Nat) : (s.setLoader x).homeOf m = s.homeOf m := rfl
@[simp] theorem zoneRec_setLoader (s : State) (x : Loader) (m : Nat) : (s.setLoader x).zoneRec m = s.zoneRec m := rfl
@[simp] theorem getPoint_setAllots (s : State) (x : List TankAllot) (q : PointId) : (s.setAllots x).getPoint q = s.getPoint q := rfl
@[simp] theorem getChan_setAllots (s : State) (x : List TankAllot) (q : PointId) : (s.setAllots x).getChan q = s.getChan q := rfl
@[simp] theorem getHose_setAllots (s : State) (x : List TankAllot) (q : PointId) : (s.setAllots x).getHose q = s.getHose q := rfl
@[simp] theorem own_setAllots (s : State) (x : List TankAllot) : (s.setAllots x).own = s.own := rfl
@[simp] theorem up_setAllots (s : State) (x : List TankAllot) : (s.setAllots x).up = s.up := rfl
@[simp] theorem cfg_setAllots (s : State) (x : List TankAllot) : (s.setAllots x).cfg = s.cfg := rfl
@[simp] theorem pointCfg_setAllots (s : State) (x : List TankAllot) (q : PointId) : (s.setAllots x).pointCfg q = s.pointCfg q := rfl
@[simp] theorem tankCfg_setAllots (s : State) (x : List TankAllot) (m : Nat) : (s.setAllots x).tankCfg m = s.tankCfg m := rfl
@[simp] theorem entry_setAllots (s : State) (x : List TankAllot) (m : Nat) : (s.setAllots x).entry m = s.entry m := rfl
@[simp] theorem homeOf_setAllots (s : State) (x : List TankAllot) (m : Nat) : (s.setAllots x).homeOf m = s.homeOf m := rfl
@[simp] theorem zoneRec_setAllots (s : State) (x : List TankAllot) (m : Nat) : (s.setAllots x).zoneRec m = s.zoneRec m := rfl
@[simp] theorem getPoint_setBook (s : State) (x : List BookEntry) (q : PointId) : (s.setBook x).getPoint q = s.getPoint q := rfl
@[simp] theorem getChan_setBook (s : State) (x : List BookEntry) (q : PointId) : (s.setBook x).getChan q = s.getChan q := rfl
@[simp] theorem getHose_setBook (s : State) (x : List BookEntry) (q : PointId) : (s.setBook x).getHose q = s.getHose q := rfl
@[simp] theorem own_setBook (s : State) (x : List BookEntry) : (s.setBook x).own = s.own := rfl
@[simp] theorem up_setBook (s : State) (x : List BookEntry) : (s.setBook x).up = s.up := rfl
@[simp] theorem cfg_setBook (s : State) (x : List BookEntry) : (s.setBook x).cfg = s.cfg := rfl
@[simp] theorem pointCfg_setBook (s : State) (x : List BookEntry) (q : PointId) : (s.setBook x).pointCfg q = s.pointCfg q := rfl
@[simp] theorem tankCfg_setBook (s : State) (x : List BookEntry) (m : Nat) : (s.setBook x).tankCfg m = s.tankCfg m := rfl
@[simp] theorem tankAllot_setBook (s : State) (x : List BookEntry) (m : Nat) : (s.setBook x).tankAllot m = s.tankAllot m := rfl
@[simp] theorem homeOf_setBook (s : State) (x : List BookEntry) (m : Nat) : (s.setBook x).homeOf m = s.homeOf m := rfl
@[simp] theorem zoneRec_setBook (s : State) (x : List BookEntry) (m : Nat) : (s.setBook x).zoneRec m = s.zoneRec m := rfl
@[simp] theorem getPoint_setHomes (s : State) (x : List HomeTank) (q : PointId) : (s.setHomes x).getPoint q = s.getPoint q := rfl
@[simp] theorem getChan_setHomes (s : State) (x : List HomeTank) (q : PointId) : (s.setHomes x).getChan q = s.getChan q := rfl
@[simp] theorem getHose_setHomes (s : State) (x : List HomeTank) (q : PointId) : (s.setHomes x).getHose q = s.getHose q := rfl
@[simp] theorem own_setHomes (s : State) (x : List HomeTank) : (s.setHomes x).own = s.own := rfl
@[simp] theorem up_setHomes (s : State) (x : List HomeTank) : (s.setHomes x).up = s.up := rfl
@[simp] theorem cfg_setHomes (s : State) (x : List HomeTank) : (s.setHomes x).cfg = s.cfg := rfl
@[simp] theorem pointCfg_setHomes (s : State) (x : List HomeTank) (q : PointId) : (s.setHomes x).pointCfg q = s.pointCfg q := rfl
@[simp] theorem tankCfg_setHomes (s : State) (x : List HomeTank) (m : Nat) : (s.setHomes x).tankCfg m = s.tankCfg m := rfl
@[simp] theorem entry_setHomes (s : State) (x : List HomeTank) (m : Nat) : (s.setHomes x).entry m = s.entry m := rfl
@[simp] theorem tankAllot_setHomes (s : State) (x : List HomeTank) (m : Nat) : (s.setHomes x).tankAllot m = s.tankAllot m := rfl
@[simp] theorem zoneRec_setHomes (s : State) (x : List HomeTank) (m : Nat) : (s.setHomes x).zoneRec m = s.zoneRec m := rfl
@[simp] theorem getPoint_setAccounts (s : State) (x : Accounts) (q : PointId) : (s.setAccounts x).getPoint q = s.getPoint q := rfl
@[simp] theorem getChan_setAccounts (s : State) (x : Accounts) (q : PointId) : (s.setAccounts x).getChan q = s.getChan q := rfl
@[simp] theorem getHose_setAccounts (s : State) (x : Accounts) (q : PointId) : (s.setAccounts x).getHose q = s.getHose q := rfl
@[simp] theorem own_setAccounts (s : State) (x : Accounts) : (s.setAccounts x).own = s.own := rfl
@[simp] theorem up_setAccounts (s : State) (x : Accounts) : (s.setAccounts x).up = s.up := rfl
@[simp] theorem cfg_setAccounts (s : State) (x : Accounts) : (s.setAccounts x).cfg = s.cfg := rfl
@[simp] theorem pointCfg_setAccounts (s : State) (x : Accounts) (q : PointId) : (s.setAccounts x).pointCfg q = s.pointCfg q := rfl
@[simp] theorem tankCfg_setAccounts (s : State) (x : Accounts) (m : Nat) : (s.setAccounts x).tankCfg m = s.tankCfg m := rfl
@[simp] theorem entry_setAccounts (s : State) (x : Accounts) (m : Nat) : (s.setAccounts x).entry m = s.entry m := rfl
@[simp] theorem tankAllot_setAccounts (s : State) (x : Accounts) (m : Nat) : (s.setAccounts x).tankAllot m = s.tankAllot m := rfl
@[simp] theorem homeOf_setAccounts (s : State) (x : Accounts) (m : Nat) : (s.setAccounts x).homeOf m = s.homeOf m := rfl
@[simp] theorem zoneRec_setAccounts (s : State) (x : Accounts) (m : Nat) : (s.setAccounts x).zoneRec m = s.zoneRec m := rfl
@[simp] theorem getPoint_setSpill (s : State) (x : Spill) (q : PointId) : (s.setSpill x).getPoint q = s.getPoint q := rfl
@[simp] theorem getChan_setSpill (s : State) (x : Spill) (q : PointId) : (s.setSpill x).getChan q = s.getChan q := rfl
@[simp] theorem own_setSpill (s : State) (x : Spill) : (s.setSpill x).own = s.own := rfl
@[simp] theorem up_setSpill (s : State) (x : Spill) : (s.setSpill x).up = s.up := rfl
@[simp] theorem cfg_setSpill (s : State) (x : Spill) : (s.setSpill x).cfg = s.cfg := rfl
@[simp] theorem pointCfg_setSpill (s : State) (x : Spill) (q : PointId) : (s.setSpill x).pointCfg q = s.pointCfg q := rfl
@[simp] theorem tankCfg_setSpill (s : State) (x : Spill) (m : Nat) : (s.setSpill x).tankCfg m = s.tankCfg m := rfl
@[simp] theorem entry_setSpill (s : State) (x : Spill) (m : Nat) : (s.setSpill x).entry m = s.entry m := rfl
@[simp] theorem tankAllot_setSpill (s : State) (x : Spill) (m : Nat) : (s.setSpill x).tankAllot m = s.tankAllot m := rfl
@[simp] theorem homeOf_setSpill (s : State) (x : Spill) (m : Nat) : (s.setSpill x).homeOf m = s.homeOf m := rfl
@[simp] theorem getPoint_setLog (s : State) (x : DeliveryLog) (q : PointId) : (s.setLog x).getPoint q = s.getPoint q := rfl
@[simp] theorem getChan_setLog (s : State) (x : DeliveryLog) (q : PointId) : (s.setLog x).getChan q = s.getChan q := rfl
@[simp] theorem getHose_setLog (s : State) (x : DeliveryLog) (q : PointId) : (s.setLog x).getHose q = s.getHose q := rfl
@[simp] theorem own_setLog (s : State) (x : DeliveryLog) : (s.setLog x).own = s.own := rfl
@[simp] theorem up_setLog (s : State) (x : DeliveryLog) : (s.setLog x).up = s.up := rfl
@[simp] theorem cfg_setLog (s : State) (x : DeliveryLog) : (s.setLog x).cfg = s.cfg := rfl
@[simp] theorem pointCfg_setLog (s : State) (x : DeliveryLog) (q : PointId) : (s.setLog x).pointCfg q = s.pointCfg q := rfl
@[simp] theorem tankCfg_setLog (s : State) (x : DeliveryLog) (m : Nat) : (s.setLog x).tankCfg m = s.tankCfg m := rfl
@[simp] theorem entry_setLog (s : State) (x : DeliveryLog) (m : Nat) : (s.setLog x).entry m = s.entry m := rfl
@[simp] theorem tankAllot_setLog (s : State) (x : DeliveryLog) (m : Nat) : (s.setLog x).tankAllot m = s.tankAllot m := rfl
@[simp] theorem homeOf_setLog (s : State) (x : DeliveryLog) (m : Nat) : (s.setLog x).homeOf m = s.homeOf m := rfl
@[simp] theorem zoneRec_setLog (s : State) (x : DeliveryLog) (m : Nat) : (s.setLog x).zoneRec m = s.zoneRec m := rfl
@[simp] theorem getPoint_setLink (s : State) (x : Link) (q : PointId) : (s.setLink x).getPoint q = s.getPoint q := rfl
@[simp] theorem getChan_setLink (s : State) (x : Link) (q : PointId) : (s.setLink x).getChan q = s.getChan q := rfl
@[simp] theorem getHose_setLink (s : State) (x : Link) (q : PointId) : (s.setLink x).getHose q = s.getHose q := rfl
@[simp] theorem own_setLink (s : State) (x : Link) : (s.setLink x).own = s.own := rfl
@[simp] theorem up_setLink (s : State) (x : Link) : (s.setLink x).up = s.up := rfl
@[simp] theorem cfg_setLink (s : State) (x : Link) : (s.setLink x).cfg = s.cfg := rfl
@[simp] theorem pointCfg_setLink (s : State) (x : Link) (q : PointId) : (s.setLink x).pointCfg q = s.pointCfg q := rfl
@[simp] theorem tankCfg_setLink (s : State) (x : Link) (m : Nat) : (s.setLink x).tankCfg m = s.tankCfg m := rfl
@[simp] theorem entry_setLink (s : State) (x : Link) (m : Nat) : (s.setLink x).entry m = s.entry m := rfl
@[simp] theorem tankAllot_setLink (s : State) (x : Link) (m : Nat) : (s.setLink x).tankAllot m = s.tankAllot m := rfl
@[simp] theorem homeOf_setLink (s : State) (x : Link) (m : Nat) : (s.setLink x).homeOf m = s.homeOf m := rfl
@[simp] theorem zoneRec_setLink (s : State) (x : Link) (m : Nat) : (s.setLink x).zoneRec m = s.zoneRec m := rfl
@[simp] theorem getPoint_setMarks (s : State) (x : EventMarks) (q : PointId) : (s.setMarks x).getPoint q = s.getPoint q := rfl
@[simp] theorem getChan_setMarks (s : State) (x : EventMarks) (q : PointId) : (s.setMarks x).getChan q = s.getChan q := rfl
@[simp] theorem getHose_setMarks (s : State) (x : EventMarks) (q : PointId) : (s.setMarks x).getHose q = s.getHose q := rfl
@[simp] theorem own_setMarks (s : State) (x : EventMarks) : (s.setMarks x).own = s.own := rfl
@[simp] theorem up_setMarks (s : State) (x : EventMarks) : (s.setMarks x).up = s.up := rfl
@[simp] theorem cfg_setMarks (s : State) (x : EventMarks) : (s.setMarks x).cfg = s.cfg := rfl
@[simp] theorem pointCfg_setMarks (s : State) (x : EventMarks) (q : PointId) : (s.setMarks x).pointCfg q = s.pointCfg q := rfl
@[simp] theorem tankCfg_setMarks (s : State) (x : EventMarks) (m : Nat) : (s.setMarks x).tankCfg m = s.tankCfg m := rfl
@[simp] theorem entry_setMarks (s : State) (x : EventMarks) (m : Nat) : (s.setMarks x).entry m = s.entry m := rfl
@[simp] theorem tankAllot_setMarks (s : State) (x : EventMarks) (m : Nat) : (s.setMarks x).tankAllot m = s.tankAllot m := rfl
@[simp] theorem homeOf_setMarks (s : State) (x : EventMarks) (m : Nat) : (s.setMarks x).homeOf m = s.homeOf m := rfl
@[simp] theorem zoneRec_setMarks (s : State) (x : EventMarks) (m : Nat) : (s.setMarks x).zoneRec m = s.zoneRec m := rfl
@[simp] theorem getPoint_setFree (s : State) (x : Nat) (q : PointId) : (s.setFree x).getPoint q = s.getPoint q := rfl
@[simp] theorem getChan_setFree (s : State) (x : Nat) (q : PointId) : (s.setFree x).getChan q = s.getChan q := rfl
@[simp] theorem getHose_setFree (s : State) (x : Nat) (q : PointId) : (s.setFree x).getHose q = s.getHose q := rfl
@[simp] theorem own_setFree (s : State) (x : Nat) : (s.setFree x).own = s.own := rfl
@[simp] theorem up_setFree (s : State) (x : Nat) : (s.setFree x).up = s.up := rfl
@[simp] theorem cfg_setFree (s : State) (x : Nat) : (s.setFree x).cfg = s.cfg := rfl
@[simp] theorem pointCfg_setFree (s : State) (x : Nat) (q : PointId) : (s.setFree x).pointCfg q = s.pointCfg q := rfl
@[simp] theorem tankCfg_setFree (s : State) (x : Nat) (m : Nat) : (s.setFree x).tankCfg m = s.tankCfg m := rfl
@[simp] theorem entry_setFree (s : State) (x : Nat) (m : Nat) : (s.setFree x).entry m = s.entry m := rfl
@[simp] theorem tankAllot_setFree (s : State) (x : Nat) (m : Nat) : (s.setFree x).tankAllot m = s.tankAllot m := rfl
@[simp] theorem homeOf_setFree (s : State) (x : Nat) (m : Nat) : (s.setFree x).homeOf m = s.homeOf m := rfl
@[simp] theorem zoneRec_setFree (s : State) (x : Nat) (m : Nat) : (s.setFree x).zoneRec m = s.zoneRec m := rfl
@[simp] theorem getPoint_setNextRun (s : State) (x : Nat) (q : PointId) : (s.setNextRun x).getPoint q = s.getPoint q := rfl
@[simp] theorem getChan_setNextRun (s : State) (x : Nat) (q : PointId) : (s.setNextRun x).getChan q = s.getChan q := rfl
@[simp] theorem getHose_setNextRun (s : State) (x : Nat) (q : PointId) : (s.setNextRun x).getHose q = s.getHose q := rfl
@[simp] theorem own_setNextRun (s : State) (x : Nat) : (s.setNextRun x).own = s.own := rfl
@[simp] theorem up_setNextRun (s : State) (x : Nat) : (s.setNextRun x).up = s.up := rfl
@[simp] theorem cfg_setNextRun (s : State) (x : Nat) : (s.setNextRun x).cfg = s.cfg := rfl
@[simp] theorem pointCfg_setNextRun (s : State) (x : Nat) (q : PointId) : (s.setNextRun x).pointCfg q = s.pointCfg q := rfl
@[simp] theorem tankCfg_setNextRun (s : State) (x : Nat) (m : Nat) : (s.setNextRun x).tankCfg m = s.tankCfg m := rfl
@[simp] theorem entry_setNextRun (s : State) (x : Nat) (m : Nat) : (s.setNextRun x).entry m = s.entry m := rfl
@[simp] theorem tankAllot_setNextRun (s : State) (x : Nat) (m : Nat) : (s.setNextRun x).tankAllot m = s.tankAllot m := rfl
@[simp] theorem homeOf_setNextRun (s : State) (x : Nat) (m : Nat) : (s.setNextRun x).homeOf m = s.homeOf m := rfl
@[simp] theorem zoneRec_setNextRun (s : State) (x : Nat) (m : Nat) : (s.setNextRun x).zoneRec m = s.zoneRec m := rfl
@[simp] theorem getPoint_setPresence (s : State) (x : List PresenceEntry) (q : PointId) : (s.setPresence x).getPoint q = s.getPoint q := rfl
@[simp] theorem getChan_setPresence (s : State) (x : List PresenceEntry) (q : PointId) : (s.setPresence x).getChan q = s.getChan q := rfl
@[simp] theorem getHose_setPresence (s : State) (x : List PresenceEntry) (q : PointId) : (s.setPresence x).getHose q = s.getHose q := rfl
@[simp] theorem own_setPresence (s : State) (x : List PresenceEntry) : (s.setPresence x).own = s.own := rfl
@[simp] theorem up_setPresence (s : State) (x : List PresenceEntry) : (s.setPresence x).up = s.up := rfl
@[simp] theorem cfg_setPresence (s : State) (x : List PresenceEntry) : (s.setPresence x).cfg = s.cfg := rfl
@[simp] theorem pointCfg_setPresence (s : State) (x : List PresenceEntry) (q : PointId) : (s.setPresence x).pointCfg q = s.pointCfg q := rfl
@[simp] theorem tankCfg_setPresence (s : State) (x : List PresenceEntry) (m : Nat) : (s.setPresence x).tankCfg m = s.tankCfg m := rfl
@[simp] theorem entry_setPresence (s : State) (x : List PresenceEntry) (m : Nat) : (s.setPresence x).entry m = s.entry m := rfl
@[simp] theorem tankAllot_setPresence (s : State) (x : List PresenceEntry) (m : Nat) : (s.setPresence x).tankAllot m = s.tankAllot m := rfl
@[simp] theorem homeOf_setPresence (s : State) (x : List PresenceEntry) (m : Nat) : (s.setPresence x).homeOf m = s.homeOf m := rfl
@[simp] theorem zoneRec_setPresence (s : State) (x : List PresenceEntry) (m : Nat) : (s.setPresence x).zoneRec m = s.zoneRec m := rfl
@[simp] theorem getPoint_setQueue (s : State) (x : List Slot) (q : PointId) : (s.setQueue x).getPoint q = s.getPoint q := rfl
@[simp] theorem getChan_setQueue (s : State) (x : List Slot) (q : PointId) : (s.setQueue x).getChan q = s.getChan q := rfl
@[simp] theorem getHose_setQueue (s : State) (x : List Slot) (q : PointId) : (s.setQueue x).getHose q = s.getHose q := rfl
@[simp] theorem own_setQueue (s : State) (x : List Slot) : (s.setQueue x).own = s.own := rfl
@[simp] theorem up_setQueue (s : State) (x : List Slot) : (s.setQueue x).up = s.up := rfl
@[simp] theorem cfg_setQueue (s : State) (x : List Slot) : (s.setQueue x).cfg = s.cfg := rfl
@[simp] theorem pointCfg_setQueue (s : State) (x : List Slot) (q : PointId) : (s.setQueue x).pointCfg q = s.pointCfg q := rfl
@[simp] theorem tankCfg_setQueue (s : State) (x : List Slot) (m : Nat) : (s.setQueue x).tankCfg m = s.tankCfg m := rfl
@[simp] theorem entry_setQueue (s : State) (x : List Slot) (m : Nat) : (s.setQueue x).entry m = s.entry m := rfl
@[simp] theorem tankAllot_setQueue (s : State) (x : List Slot) (m : Nat) : (s.setQueue x).tankAllot m = s.tankAllot m := rfl
@[simp] theorem homeOf_setQueue (s : State) (x : List Slot) (m : Nat) : (s.setQueue x).homeOf m = s.homeOf m := rfl
@[simp] theorem zoneRec_setQueue (s : State) (x : List Slot) (m : Nat) : (s.setQueue x).zoneRec m = s.zoneRec m := rfl
@[simp] theorem getPoint_setCollection (s : State) (x : Option Collection) (q : PointId) : (s.setCollection x).getPoint q = s.getPoint q := rfl
@[simp] theorem getChan_setCollection (s : State) (x : Option Collection) (q : PointId) : (s.setCollection x).getChan q = s.getChan q := rfl
@[simp] theorem getHose_setCollection (s : State) (x : Option Collection) (q : PointId) : (s.setCollection x).getHose q = s.getHose q := rfl
@[simp] theorem own_setCollection (s : State) (x : Option Collection) : (s.setCollection x).own = s.own := rfl
@[simp] theorem up_setCollection (s : State) (x : Option Collection) : (s.setCollection x).up = s.up := rfl
@[simp] theorem cfg_setCollection (s : State) (x : Option Collection) : (s.setCollection x).cfg = s.cfg := rfl
@[simp] theorem pointCfg_setCollection (s : State) (x : Option Collection) (q : PointId) : (s.setCollection x).pointCfg q = s.pointCfg q := rfl
@[simp] theorem tankCfg_setCollection (s : State) (x : Option Collection) (m : Nat) : (s.setCollection x).tankCfg m = s.tankCfg m := rfl
@[simp] theorem entry_setCollection (s : State) (x : Option Collection) (m : Nat) : (s.setCollection x).entry m = s.entry m := rfl
@[simp] theorem tankAllot_setCollection (s : State) (x : Option Collection) (m : Nat) : (s.setCollection x).tankAllot m = s.tankAllot m := rfl
@[simp] theorem homeOf_setCollection (s : State) (x : Option Collection) (m : Nat) : (s.setCollection x).homeOf m = s.homeOf m := rfl
@[simp] theorem zoneRec_setCollection (s : State) (x : Option Collection) (m : Nat) : (s.setCollection x).zoneRec m = s.zoneRec m := rfl
@[simp] theorem getPoint_setCache (s : State) (x : List CacheRec) (q : PointId) : (s.setCache x).getPoint q = s.getPoint q := rfl
@[simp] theorem getChan_setCache (s : State) (x : List CacheRec) (q : PointId) : (s.setCache x).getChan q = s.getChan q := rfl
@[simp] theorem getHose_setCache (s : State) (x : List CacheRec) (q : PointId) : (s.setCache x).getHose q = s.getHose q := rfl
@[simp] theorem own_setCache (s : State) (x : List CacheRec) : (s.setCache x).own = s.own := rfl
@[simp] theorem up_setCache (s : State) (x : List CacheRec) : (s.setCache x).up = s.up := rfl
@[simp] theorem cfg_setCache (s : State) (x : List CacheRec) : (s.setCache x).cfg = s.cfg := rfl
@[simp] theorem pointCfg_setCache (s : State) (x : List CacheRec) (q : PointId) : (s.setCache x).pointCfg q = s.pointCfg q := rfl
@[simp] theorem tankCfg_setCache (s : State) (x : List CacheRec) (m : Nat) : (s.setCache x).tankCfg m = s.tankCfg m := rfl
@[simp] theorem entry_setCache (s : State) (x : List CacheRec) (m : Nat) : (s.setCache x).entry m = s.entry m := rfl
@[simp] theorem tankAllot_setCache (s : State) (x : List CacheRec) (m : Nat) : (s.setCache x).tankAllot m = s.tankAllot m := rfl
@[simp] theorem homeOf_setCache (s : State) (x : List CacheRec) (m : Nat) : (s.setCache x).homeOf m = s.homeOf m := rfl
@[simp] theorem zoneRec_setCache (s : State) (x : List CacheRec) (m : Nat) : (s.setCache x).zoneRec m = s.zoneRec m := rfl
@[simp] theorem getPoint_setSeeks (s : State) (x : List Seek) (q : PointId) : (s.setSeeks x).getPoint q = s.getPoint q := rfl
@[simp] theorem getChan_setSeeks (s : State) (x : List Seek) (q : PointId) : (s.setSeeks x).getChan q = s.getChan q := rfl
@[simp] theorem getHose_setSeeks (s : State) (x : List Seek) (q : PointId) : (s.setSeeks x).getHose q = s.getHose q := rfl
@[simp] theorem own_setSeeks (s : State) (x : List Seek) : (s.setSeeks x).own = s.own := rfl
@[simp] theorem up_setSeeks (s : State) (x : List Seek) : (s.setSeeks x).up = s.up := rfl
@[simp] theorem cfg_setSeeks (s : State) (x : List Seek) : (s.setSeeks x).cfg = s.cfg := rfl
@[simp] theorem pointCfg_setSeeks (s : State) (x : List Seek) (q : PointId) : (s.setSeeks x).pointCfg q = s.pointCfg q := rfl
@[simp] theorem tankCfg_setSeeks (s : State) (x : List Seek) (m : Nat) : (s.setSeeks x).tankCfg m = s.tankCfg m := rfl
@[simp] theorem entry_setSeeks (s : State) (x : List Seek) (m : Nat) : (s.setSeeks x).entry m = s.entry m := rfl
@[simp] theorem tankAllot_setSeeks (s : State) (x : List Seek) (m : Nat) : (s.setSeeks x).tankAllot m = s.tankAllot m := rfl
@[simp] theorem homeOf_setSeeks (s : State) (x : List Seek) (m : Nat) : (s.setSeeks x).homeOf m = s.homeOf m := rfl
@[simp] theorem zoneRec_setSeeks (s : State) (x : List Seek) (m : Nat) : (s.setSeeks x).zoneRec m = s.zoneRec m := rfl
@[simp] theorem getChan_modPoint (s : State) (p : PointId) (f : Point → Point) (q : PointId) : (s.modPoint p f).getChan q = s.getChan q := rfl
@[simp] theorem getHose_modPoint (s : State) (p : PointId) (f : Point → Point) (q : PointId) : (s.modPoint p f).getHose q = s.getHose q := rfl
@[simp] theorem own_modPoint (s : State) (p : PointId) (f : Point → Point) : (s.modPoint p f).own = s.own := rfl
@[simp] theorem up_modPoint (s : State) (p : PointId) (f : Point → Point) : (s.modPoint p f).up = s.up := rfl
@[simp] theorem cfg_modPoint (s : State) (p : PointId) (f : Point → Point) : (s.modPoint p f).cfg = s.cfg := rfl
@[simp] theorem pointCfg_modPoint (s : State) (p : PointId) (f : Point → Point) (q : PointId) : (s.modPoint p f).pointCfg q = s.pointCfg q := rfl
@[simp] theorem tankCfg_modPoint (s : State) (p : PointId) (f : Point → Point) (m : Nat) : (s.modPoint p f).tankCfg m = s.tankCfg m := rfl
@[simp] theorem entry_modPoint (s : State) (p : PointId) (f : Point → Point) (m : Nat) : (s.modPoint p f).entry m = s.entry m := rfl
@[simp] theorem tankAllot_modPoint (s : State) (p : PointId) (f : Point → Point) (m : Nat) : (s.modPoint p f).tankAllot m = s.tankAllot m := rfl
@[simp] theorem homeOf_modPoint (s : State) (p : PointId) (f : Point → Point) (m : Nat) : (s.modPoint p f).homeOf m = s.homeOf m := rfl
@[simp] theorem zoneRec_modPoint (s : State) (p : PointId) (f : Point → Point) (m : Nat) : (s.modPoint p f).zoneRec m = s.zoneRec m := rfl
@[simp] theorem getPoint_modChan (s : State) (p : PointId) (f : Channel → Channel) (q : PointId) : (s.modChan p f).getPoint q = s.getPoint q := rfl
@[simp] theorem getHose_modChan (s : State) (p : PointId) (f : Channel → Channel) (q : PointId) : (s.modChan p f).getHose q = s.getHose q := rfl
@[simp] theorem own_modChan (s : State) (p : PointId) (f : Channel → Channel) : (s.modChan p f).own = s.own := rfl
@[simp] theorem up_modChan (s : State) (p : PointId) (f : Channel → Channel) : (s.modChan p f).up = s.up := rfl
@[simp] theorem cfg_modChan (s : State) (p : PointId) (f : Channel → Channel) : (s.modChan p f).cfg = s.cfg := rfl
@[simp] theorem pointCfg_modChan (s : State) (p : PointId) (f : Channel → Channel) (q : PointId) : (s.modChan p f).pointCfg q = s.pointCfg q := rfl
@[simp] theorem tankCfg_modChan (s : State) (p : PointId) (f : Channel → Channel) (m : Nat) : (s.modChan p f).tankCfg m = s.tankCfg m := rfl
@[simp] theorem entry_modChan (s : State) (p : PointId) (f : Channel → Channel) (m : Nat) : (s.modChan p f).entry m = s.entry m := rfl
@[simp] theorem tankAllot_modChan (s : State) (p : PointId) (f : Channel → Channel) (m : Nat) : (s.modChan p f).tankAllot m = s.tankAllot m := rfl
@[simp] theorem homeOf_modChan (s : State) (p : PointId) (f : Channel → Channel) (m : Nat) : (s.modChan p f).homeOf m = s.homeOf m := rfl
@[simp] theorem zoneRec_modChan (s : State) (p : PointId) (f : Channel → Channel) (m : Nat) : (s.modChan p f).zoneRec m = s.zoneRec m := rfl
@[simp] theorem getPoint_modEntry (s : State) (n : Nat) (f : BookEntry → BookEntry) (q : PointId) : (s.modEntry n f).getPoint q = s.getPoint q := rfl
@[simp] theorem getChan_modEntry (s : State) (n : Nat) (f : BookEntry → BookEntry) (q : PointId) : (s.modEntry n f).getChan q = s.getChan q := rfl
@[simp] theorem getHose_modEntry (s : State) (n : Nat) (f : BookEntry → BookEntry) (q : PointId) : (s.modEntry n f).getHose q = s.getHose q := rfl
@[simp] theorem own_modEntry (s : State) (n : Nat) (f : BookEntry → BookEntry) : (s.modEntry n f).own = s.own := rfl
@[simp] theorem up_modEntry (s : State) (n : Nat) (f : BookEntry → BookEntry) : (s.modEntry n f).up = s.up := rfl
@[simp] theorem cfg_modEntry (s : State) (n : Nat) (f : BookEntry → BookEntry) : (s.modEntry n f).cfg = s.cfg := rfl
@[simp] theorem pointCfg_modEntry (s : State) (n : Nat) (f : BookEntry → BookEntry) (q : PointId) : (s.modEntry n f).pointCfg q = s.pointCfg q := rfl
@[simp] theorem tankCfg_modEntry (s : State) (n : Nat) (f : BookEntry → BookEntry) (m : Nat) : (s.modEntry n f).tankCfg m = s.tankCfg m := rfl
@[simp] theorem tankAllot_modEntry (s : State) (n : Nat) (f : BookEntry → BookEntry) (m : Nat) : (s.modEntry n f).tankAllot m = s.tankAllot m := rfl
@[simp] theorem homeOf_modEntry (s : State) (n : Nat) (f : BookEntry → BookEntry) (m : Nat) : (s.modEntry n f).homeOf m = s.homeOf m := rfl
@[simp] theorem zoneRec_modEntry (s : State) (n : Nat) (f : BookEntry → BookEntry) (m : Nat) : (s.modEntry n f).zoneRec m = s.zoneRec m := rfl
@[simp] theorem getPoint_modAllot (s : State) (n : Nat) (f : TankAllot → TankAllot) (q : PointId) : (s.modAllot n f).getPoint q = s.getPoint q := rfl
@[simp] theorem getChan_modAllot (s : State) (n : Nat) (f : TankAllot → TankAllot) (q : PointId) : (s.modAllot n f).getChan q = s.getChan q := rfl
@[simp] theorem getHose_modAllot (s : State) (n : Nat) (f : TankAllot → TankAllot) (q : PointId) : (s.modAllot n f).getHose q = s.getHose q := rfl
@[simp] theorem own_modAllot (s : State) (n : Nat) (f : TankAllot → TankAllot) : (s.modAllot n f).own = s.own := rfl
@[simp] theorem up_modAllot (s : State) (n : Nat) (f : TankAllot → TankAllot) : (s.modAllot n f).up = s.up := rfl
@[simp] theorem cfg_modAllot (s : State) (n : Nat) (f : TankAllot → TankAllot) : (s.modAllot n f).cfg = s.cfg := rfl
@[simp] theorem pointCfg_modAllot (s : State) (n : Nat) (f : TankAllot → TankAllot) (q : PointId) : (s.modAllot n f).pointCfg q = s.pointCfg q := rfl
@[simp] theorem tankCfg_modAllot (s : State) (n : Nat) (f : TankAllot → TankAllot) (m : Nat) : (s.modAllot n f).tankCfg m = s.tankCfg m := rfl
@[simp] theorem entry_modAllot (s : State) (n : Nat) (f : TankAllot → TankAllot) (m : Nat) : (s.modAllot n f).entry m = s.entry m := rfl
@[simp] theorem homeOf_modAllot (s : State) (n : Nat) (f : TankAllot → TankAllot) (m : Nat) : (s.modAllot n f).homeOf m = s.homeOf m := rfl
@[simp] theorem zoneRec_modAllot (s : State) (n : Nat) (f : TankAllot → TankAllot) (m : Nat) : (s.modAllot n f).zoneRec m = s.zoneRec m := rfl
@[simp] theorem getPoint_modHome (s : State) (n : Nat) (f : HomeTank → HomeTank) (q : PointId) : (s.modHome n f).getPoint q = s.getPoint q := rfl
@[simp] theorem getChan_modHome (s : State) (n : Nat) (f : HomeTank → HomeTank) (q : PointId) : (s.modHome n f).getChan q = s.getChan q := rfl
@[simp] theorem getHose_modHome (s : State) (n : Nat) (f : HomeTank → HomeTank) (q : PointId) : (s.modHome n f).getHose q = s.getHose q := rfl
@[simp] theorem own_modHome (s : State) (n : Nat) (f : HomeTank → HomeTank) : (s.modHome n f).own = s.own := rfl
@[simp] theorem up_modHome (s : State) (n : Nat) (f : HomeTank → HomeTank) : (s.modHome n f).up = s.up := rfl
@[simp] theorem cfg_modHome (s : State) (n : Nat) (f : HomeTank → HomeTank) : (s.modHome n f).cfg = s.cfg := rfl
@[simp] theorem pointCfg_modHome (s : State) (n : Nat) (f : HomeTank → HomeTank) (q : PointId) : (s.modHome n f).pointCfg q = s.pointCfg q := rfl
@[simp] theorem tankCfg_modHome (s : State) (n : Nat) (f : HomeTank → HomeTank) (m : Nat) : (s.modHome n f).tankCfg m = s.tankCfg m := rfl
@[simp] theorem entry_modHome (s : State) (n : Nat) (f : HomeTank → HomeTank) (m : Nat) : (s.modHome n f).entry m = s.entry m := rfl
@[simp] theorem tankAllot_modHome (s : State) (n : Nat) (f : HomeTank → HomeTank) (m : Nat) : (s.modHome n f).tankAllot m = s.tankAllot m := rfl
@[simp] theorem zoneRec_modHome (s : State) (n : Nat) (f : HomeTank → HomeTank) (m : Nat) : (s.modHome n f).zoneRec m = s.zoneRec m := rfl
@[simp] theorem getPoint_modZone (s : State) (n : Nat) (f : ZoneRec → ZoneRec) (q : PointId) : (s.modZone n f).getPoint q = s.getPoint q := rfl
@[simp] theorem getChan_modZone (s : State) (n : Nat) (f : ZoneRec → ZoneRec) (q : PointId) : (s.modZone n f).getChan q = s.getChan q := rfl
@[simp] theorem getHose_modZone (s : State) (n : Nat) (f : ZoneRec → ZoneRec) (q : PointId) : (s.modZone n f).getHose q = s.getHose q := rfl
@[simp] theorem own_modZone (s : State) (n : Nat) (f : ZoneRec → ZoneRec) : (s.modZone n f).own = s.own := rfl
@[simp] theorem up_modZone (s : State) (n : Nat) (f : ZoneRec → ZoneRec) : (s.modZone n f).up = s.up := rfl
@[simp] theorem cfg_modZone (s : State) (n : Nat) (f : ZoneRec → ZoneRec) : (s.modZone n f).cfg = s.cfg := rfl
@[simp] theorem pointCfg_modZone (s : State) (n : Nat) (f : ZoneRec → ZoneRec) (q : PointId) : (s.modZone n f).pointCfg q = s.pointCfg q := rfl
@[simp] theorem tankCfg_modZone (s : State) (n : Nat) (f : ZoneRec → ZoneRec) (m : Nat) : (s.modZone n f).tankCfg m = s.tankCfg m := rfl
@[simp] theorem entry_modZone (s : State) (n : Nat) (f : ZoneRec → ZoneRec) (m : Nat) : (s.modZone n f).entry m = s.entry m := rfl
@[simp] theorem tankAllot_modZone (s : State) (n : Nat) (f : ZoneRec → ZoneRec) (m : Nat) : (s.modZone n f).tankAllot m = s.tankAllot m := rfl
@[simp] theorem homeOf_modZone (s : State) (n : Nat) (f : ZoneRec → ZoneRec) (m : Nat) : (s.modZone n f).homeOf m = s.homeOf m := rfl
@[simp] theorem getPoint_setHose (s : State) (p : PointId) (x : HoseSource) (q : PointId) : (s.setHose p x).getPoint q = s.getPoint q := rfl
@[simp] theorem getChan_setHose (s : State) (p : PointId) (x : HoseSource) (q : PointId) : (s.setHose p x).getChan q = s.getChan q := rfl
@[simp] theorem own_setHose (s : State) (p : PointId) (x : HoseSource) : (s.setHose p x).own = s.own := rfl
@[simp] theorem up_setHose (s : State) (p : PointId) (x : HoseSource) : (s.setHose p x).up = s.up := rfl
@[simp] theorem cfg_setHose (s : State) (p : PointId) (x : HoseSource) : (s.setHose p x).cfg = s.cfg := rfl
@[simp] theorem pointCfg_setHose (s : State) (p : PointId) (x : HoseSource) (q : PointId) : (s.setHose p x).pointCfg q = s.pointCfg q := rfl
@[simp] theorem tankCfg_setHose (s : State) (p : PointId) (x : HoseSource) (m : Nat) : (s.setHose p x).tankCfg m = s.tankCfg m := rfl
@[simp] theorem entry_setHose (s : State) (p : PointId) (x : HoseSource) (m : Nat) : (s.setHose p x).entry m = s.entry m := rfl
@[simp] theorem tankAllot_setHose (s : State) (p : PointId) (x : HoseSource) (m : Nat) : (s.setHose p x).tankAllot m = s.tankAllot m := rfl
@[simp] theorem homeOf_setHose (s : State) (p : PointId) (x : HoseSource) (m : Nat) : (s.setHose p x).homeOf m = s.homeOf m := rfl
@[simp] theorem zoneRec_setHose (s : State) (p : PointId) (x : HoseSource) (m : Nat) : (s.setHose p x).zoneRec m = s.zoneRec m := rfl

end Sys2Proof.Machine.State
end

