-- ==== Sys2Proof/Laws/Fields.lean ====
section
/-! SUPPORT. The laws of the accessors: points, table rows, timers. -/
namespace Sys2Proof.Machine

@[simp] theorem PerPoint.get_all {α : Type} (a : α) (p : PointId) : (PerPoint.all a).get p = a := by cases p <;> rfl

theorem PerPoint.get_set {α : Type} (v : PerPoint α) (p q : PointId) (a : α) :
    (v.set p a).get q = if q = p then a else v.get q := by cases p <;> cases q <;> rfl

@[simp] theorem PerPoint.get_set_same {α : Type} (v : PerPoint α) (p : PointId) (a : α) : (v.set p a).get p = a := by
  cases p <;> rfl

theorem PerPoint.get_set_other {α : Type} (v : PerPoint α) {p q : PointId} (a : α) (h : q ≠ p) :
    (v.set p a).get q = v.get q := by rw [PerPoint.get_set, if_neg h]

/-- Two collections with the same value at every point are equal. -/
theorem PerPoint.ext_get {α : Type} {v w : PerPoint α} (h : ∀ p, v.get p = w.get p) : v = w := by
  obtain ⟨a1, a2, a3, a4, a5, a6⟩ := v
  obtain ⟨b1, b2, b3, b4, b5, b6⟩ := w
  have h1 : a1 = b1 := h .p1
  have h2 : a2 = b2 := h .p2
  have h3 : a3 = b3 := h .p3
  have h4 : a4 = b4 := h .p4
  have h5 : a5 = b5 := h .p5
  have h6 : a6 = b6 := h .p6
  subst h1 h2 h3 h4 h5 h6
  rfl

@[simp] theorem pointOf_pointNum (p : PointId) : pointOf (pointNum p) = some p := by cases p <;> rfl

@[simp] theorem mem_allPoints (p : PointId) : p ∈ allPoints := by cases p <;> decide

namespace State

theorem getPoint_setPoint (s : State) (p q : PointId) (x : Point) :
    (s.setPoint p x).getPoint q = if q = p then x else s.getPoint q := PerPoint.get_set ..

@[simp] theorem getPoint_setPoint_same (s : State) (p : PointId) (x : Point) : (s.setPoint p x).getPoint p = x := by
  simp [getPoint]

theorem getPoint_modPoint (s : State) (p q : PointId) (f : Point → Point) :
    (s.modPoint p f).getPoint q = if q = p then f (s.getPoint p) else s.getPoint q := PerPoint.get_set ..

@[simp] theorem getPoint_modPoint_same (s : State) (p : PointId) (f : Point → Point) :
    (s.modPoint p f).getPoint p = f (s.getPoint p) := by simp [getPoint]

theorem getPoint_modPoint_other (s : State) {p q : PointId} (f : Point → Point) (h : q ≠ p) :
    (s.modPoint p f).getPoint q = s.getPoint q := by rw [getPoint_modPoint, if_neg h]

theorem getChan_setChan (s : State) (p q : PointId) (x : Channel) :
    (s.setChan p x).getChan q = if q = p then x else s.getChan q := PerPoint.get_set ..

theorem getChan_modChan (s : State) (p q : PointId) (f : Channel → Channel) :
    (s.modChan p f).getChan q = if q = p then f (s.getChan p) else s.getChan q := PerPoint.get_set ..

@[simp] theorem getChan_modChan_same (s : State) (p : PointId) (f : Channel → Channel) :
    (s.modChan p f).getChan p = f (s.getChan p) := by simp [getChan]

theorem getChan_modChan_other (s : State) {p q : PointId} (f : Channel → Channel) (h : q ≠ p) :
    (s.modChan p f).getChan q = s.getChan q := by rw [getChan_modChan, if_neg h]

theorem getHose_setHose (s : State) (p q : PointId) (x : HoseSource) :
    (s.setHose p x).getHose q = if q = p then x else s.getHose q := PerPoint.get_set ..

@[simp] theorem getHose_setHose_same (s : State) (p : PointId) (x : HoseSource) : (s.setHose p x).getHose p = x := by
  simp [getHose]

/-- A station ready for an event is past LOADING. -/
theorem up_of_phase {s : State} (h : s.loader.phase = .listening ∨ s.loader.phase = .running) : s.up = true := by
  unfold up; rcases h with h | h <;> rw [h] <;> rfl

end State

/-! ### Rows -/

@[simp] theorem length_modWhere {α : Type} (q : α → Bool) (f : α → α) (l : List α) : (modWhere q f l).length = l.length := by
  simp [modWhere]

theorem modWhere_of_none {α : Type} (q : α → Bool) (f : α → α) (l : List α) (h : ∀ a ∈ l, q a = false) :
    modWhere q f l = l := by
  induction l with
  | nil => rfl
  | cons a l ih =>
    have h1 := h a (by simp)
    have h2 := ih fun b hb => h b (by simp [hb])
    unfold modWhere at h2 ⊢
    rw [List.map_cons, h2, h1]
    rfl

/-- A projection that the change keeps is kept in every row. -/
theorem map_modWhere {α β : Type} (k : α → β) (q : α → Bool) (f : α → α) (l : List α)
    (h : ∀ a ∈ l, q a = true → k (f a) = k a) : (modWhere q f l).map k = l.map k := by
  unfold modWhere
  rw [List.map_map]
  apply List.map_congr_left
  intro a ha
  simp only [Function.comp]
  split
  · next hq => exact h a ha hq
  · rfl

theorem modWhere_cons {α : Type} (q : α → Bool) (f : α → α) (a : α) (l : List α) :
    modWhere q f (a :: l) = (if q a then f a else a) :: modWhere q f l := rfl

/-- The row of a key after a change that keeps keys. -/
theorem find_modWhere {α : Type} (k : α → Nat) (n : Nat) (f : α → α) (l : List α) (h : ∀ a, k (f a) = k a) :
    (modWhere (fun a => k a == n) f l).find? (fun a => k a == n) = (l.find? fun a => k a == n).map f := by
  induction l with
  | nil => rfl
  | cons a l ih =>
    rw [modWhere_cons, List.find?_cons, List.find?_cons, ih]
    cases hn : (k a == n) with
    | true => simp [h, hn]
    | false => simp [hn]

/-- The row of another key is not touched. -/
theorem find_modWhere_other {α : Type} (k : α → Nat) (n m : Nat) (f : α → α) (l : List α) (h : ∀ a, k (f a) = k a)
    (hnm : m ≠ n) : (modWhere (fun a => k a == n) f l).find? (fun a => k a == m) = l.find? fun a => k a == m := by
  induction l with
  | nil => rfl
  | cons a l ih =>
    rw [modWhere_cons, List.find?_cons, List.find?_cons, ih]
    cases hn : (k a == n) with
    | true =>
      have hm : (k a == m) = false := by
        rw [beq_iff_eq.mp hn]
        exact beq_false_of_ne (Ne.symm hnm)
      simp [h, hm]
    | false => simp

namespace State

theorem entry_modEntry (s : State) (n : Nat) (f : BookEntry → BookEntry) (h : ∀ e, (f e).tank = e.tank) :
    (s.modEntry n f).entry n = (s.entry n).map f := find_modWhere BookEntry.tank n f s.book h

theorem entry_modEntry_other (s : State) {n m : Nat} (f : BookEntry → BookEntry) (h : ∀ e, (f e).tank = e.tank)
    (hnm : m ≠ n) : (s.modEntry n f).entry m = s.entry m := find_modWhere_other BookEntry.tank n m f s.book h hnm

theorem tankAllot_modAllot (s : State) (n : Nat) (f : TankAllot → TankAllot) (h : ∀ t, (f t).tank = t.tank) :
    (s.modAllot n f).tankAllot n = (s.tankAllot n).map f := find_modWhere TankAllot.tank n f s.allot h

theorem tankAllot_modAllot_other (s : State) {n m : Nat} (f : TankAllot → TankAllot) (h : ∀ t, (f t).tank = t.tank)
    (hnm : m ≠ n) : (s.modAllot n f).tankAllot m = s.tankAllot m := find_modWhere_other TankAllot.tank n m f s.allot h hnm

theorem homeOf_modHome (s : State) (n : Nat) (f : HomeTank → HomeTank) (h : ∀ t, (f t).tank = t.tank) :
    (s.modHome n f).homeOf n = (s.homeOf n).map f := find_modWhere HomeTank.tank n f s.homes h

theorem zoneRec_modZone (s : State) (n : Nat) (f : ZoneRec → ZoneRec) (h : ∀ r, (f r).zone = r.zone) :
    (s.modZone n f).zoneRec n = (s.zoneRec n).map f := find_modWhere ZoneRec.zone n f s.spill.zones h

theorem zoneRec_modZone_other (s : State) {n m : Nat} (f : ZoneRec → ZoneRec) (h : ∀ r, (f r).zone = r.zone)
    (hnm : m ≠ n) : (s.modZone n f).zoneRec m = s.zoneRec m := find_modWhere_other ZoneRec.zone n m f s.spill.zones h hnm

end State

/-- Inserting a row puts it in the table, with no second row of its key if there was none. -/
theorem mem_insertRow {α : Type} (key : α → Nat) (a : α) (l : List α) : a ∈ insertRow key a l := by
  induction l with
  | nil => simp [insertRow]
  | cons b l ih =>
    unfold insertRow
    split
    · simp
    · split
      · simp
      · simp [ih]

/-! ### Free orders (log 6) -/

theorem getElem_cons_eraseIdx {α : Type} (l : List α) (i : Nat) (h : i < l.length) : (l[i] :: l.eraseIdx i).Perm l := by
  induction l generalizing i with
  | nil => exact absurd h (by simp)
  | cons a l ih =>
    cases i with
    | zero => exact List.Perm.refl _
    | succ i => exact (List.Perm.swap ..).trans (List.Perm.cons a (ih i (by simpa using h)))

/-- A free order holds the items it was given, each once. -/
theorem freeOrder_perm {α : Type} (n c : Nat) (l : List α) : (freeOrder n c l).Perm l := by
  induction n generalizing c l with
  | zero => exact List.Perm.refl l
  | succ n ih =>
    match l with
    | [] => exact List.Perm.refl _
    | [a] => exact List.Perm.refl _
    | a :: b :: rest =>
      have hi : Config.freeChoice c % (a :: b :: rest).length < (a :: b :: rest).length := Nat.mod_lt _ (by simp)
      have hget : (a :: b :: rest).getD (Config.freeChoice c % (a :: b :: rest).length) a
          = (a :: b :: rest)[Config.freeChoice c % (a :: b :: rest).length] := by
        rw [List.getD_eq_getElem?_getD, List.getElem?_eq_getElem hi]; rfl
      unfold freeOrder
      dsimp only
      rw [hget]
      exact (List.Perm.cons _ (ih _ _)).trans (getElem_cons_eraseIdx _ _ hi)

end Sys2Proof.Machine
end

