-- ==== Sys2Proof/Laws/Frame.lean ====
section
/-! SUPPORT. The frame and the bounds as one relation between the states before and after an operation, closed under composition, and the updates that satisfy it. -/
namespace Sys2Proof.Machine

/-- What an operation of a run keeps: the frame, and the bounds. -/
structure RunKeeps (s t : State) : Prop extends RunFrame s t where
  ok : s.Ok → t.Ok

/-- What any operation inside an event keeps. -/
structure EventKeeps (s t : State) : Prop extends EventFrame s t where
  ok : s.Ok → t.Ok

theorem EventFrame.refl (s : State) : EventFrame s s := by
  constructor <;> intros <;> rfl

theorem EventFrame.trans {s t u : State} (h : EventFrame s t) (g : EventFrame t u) : EventFrame s u where
  pending := g.pending.trans h.pending
  loader := g.loader.trans h.loader
  chans := fun p => (g.chans p).trans (h.chans p)
  hooks := fun p => (g.hooks p).trans (h.hooks p)
  permanent := fun p => (g.permanent p).trans (h.permanent p)
  nextRun := g.nextRun.trans h.nextRun
  peers := g.peers.trans h.peers
  book := g.book.trans h.book
  homes := g.homes.trans h.homes
  lines := g.lines.trans h.lines
  presence := g.presence.trans h.presence
  presenceTimer := g.presenceTimer.trans h.presenceTimer
  seq := g.seq.trans h.seq
  attempt := g.attempt.trans h.attempt

theorem RunFrame.refl (s : State) : RunFrame s s := by
  constructor
  · exact EventFrame.refl s
  all_goals (intros; rfl)

theorem RunFrame.trans {s t u : State} (h : RunFrame s t) (g : RunFrame t u) : RunFrame s u where
  toEventFrame := h.toEventFrame.trans g.toEventFrame
  zones := g.zones.trans h.zones
  beacon := g.beacon.trans h.beacon
  hoseWet := fun p => (g.hoseWet p).trans (h.hoseWet p)
  hoseSticky := fun p => (g.hoseSticky p).trans (h.hoseSticky p)
  meterFault := fun p => (g.meterFault p).trans (h.meterFault p)
  hoseFault := fun p => (g.hoseFault p).trans (h.hoseFault p)

theorem RunKeeps.refl (s : State) : RunKeeps s s := ⟨RunFrame.refl s, id⟩

theorem RunKeeps.trans {s t u : State} (h : RunKeeps s t) (g : RunKeeps t u) : RunKeeps s u :=
  ⟨h.toRunFrame.trans g.toRunFrame, fun k => g.ok (h.ok k)⟩

theorem EventKeeps.refl (s : State) : EventKeeps s s := ⟨EventFrame.refl s, id⟩

theorem EventKeeps.trans {s t u : State} (h : EventKeeps s t) (g : EventKeeps t u) : EventKeeps s u :=
  ⟨h.toEventFrame.trans g.toEventFrame, fun k => g.ok (h.ok k)⟩

theorem RunKeeps.event {s t : State} (h : RunKeeps s t) : EventKeeps s t := ⟨h.toEventFrame, h.ok⟩

/-- One of two operations is made. -/
theorem RunKeeps.ite {s t u : State} {c : Prop} [Decidable c] (h : RunKeeps s t) (g : RunKeeps s u) :
    RunKeeps s (if c then t else u) := by split <;> assumption

theorem EventKeeps.ite {s t u : State} {c : Prop} [Decidable c] (h : EventKeeps s t) (g : EventKeeps s u) :
    EventKeeps s (if c then t else u) := by split <;> assumption

/-! ### The updates -/

/-- The configuration, the clock and the phase are read from the loader apart from the restart list. -/
theorem EventFrame.loader_proj {s t : State} (h : EventFrame s t) {α : Type} (k : Loader → α)
    (hk : ∀ l : Loader, k l = k { l with restartList := [] }) : k t.loader = k s.loader := by
  rw [hk t.loader, hk s.loader, h.loader]

theorem EventFrame.own {s t : State} (h : EventFrame s t) : t.own = s.own := h.loader_proj (·.strap) fun _ => rfl

theorem EventFrame.up {s t : State} (h : EventFrame s t) : t.up = s.up :=
  h.loader_proj (fun l => l.phase == .listening || l.phase == .running) fun _ => rfl

theorem EventFrame.cfg {s t : State} (h : EventFrame s t) : t.cfg = s.cfg :=
  h.loader_proj (fun l => if l.imageOk then l.image else none) fun _ => rfl

theorem EventFrame.pointCfg {s t : State} (h : EventFrame s t) (p : PointId) : t.pointCfg p = s.pointCfg p := by
  unfold State.pointCfg; rw [h.cfg]

theorem EventFrame.tankCfg {s t : State} (h : EventFrame s t) (n : Nat) : t.tankCfg n = s.tankCfg n := by
  unfold State.tankCfg; rw [h.cfg]

theorem EventFrame.entry {s t : State} (h : EventFrame s t) (n : Nat) : t.entry n = s.entry n := by
  unfold State.entry; rw [h.book]

theorem EventFrame.homeOf {s t : State} (h : EventFrame s t) (n : Nat) : t.homeOf n = s.homeOf n := by
  unfold State.homeOf; rw [h.homes]

/-- An update that touches only what the frame does not name. -/
theorem RunKeeps.of_eq {s t : State} (h1 : t.pending = s.pending)
    (h2 : { t.loader with restartList := [] } = { s.loader with restartList := [] }) (h3 : t.chans = s.chans)
    (h4 : t.points = s.points) (h5 : t.nextRun = s.nextRun) (h6 : t.book = s.book) (h7 : t.homes = s.homes)
    (h8 : t.spill = s.spill) (h9 : t.link.presence = s.link.presence)
    (h10 : t.link.presenceTimer = s.link.presenceTimer) (h11 : t.link.seq = s.link.seq)
    (h12 : t.link.attempt = s.link.attempt)
    (h14 : (t.allot.map fun a => (a.tank, a.peers)) = s.allot.map fun a => (a.tank, a.peers)) (h13 : s.Ok → t.Ok) :
    RunKeeps s t where
  pending := h1
  loader := h2
  chans := fun p => by unfold State.getChan; rw [h3]
  hooks := fun p => by unfold State.getPoint; rw [h4]
  permanent := fun p => by unfold State.getPoint; rw [h4]
  nextRun := h5
  peers := h14
  book := h6
  homes := h7
  lines := by rw [h8]
  presence := h9
  presenceTimer := h10
  seq := h11
  attempt := h12
  zones := by rw [h8]
  beacon := by rw [h8]
  hoseWet := fun p => by unfold State.getHose; rw [h8]
  hoseSticky := fun p => by unfold State.getHose; rw [h8]
  meterFault := fun p => by unfold State.getPoint; rw [h4]
  hoseFault := fun p => by unfold State.getPoint; rw [h4]
  ok := h13

theorem RunKeeps.setMarks (s : State) (x : EventMarks) : RunKeeps s (s.setMarks x) :=
  .of_eq rfl rfl rfl rfl rfl rfl rfl rfl rfl rfl rfl rfl rfl id

theorem RunKeeps.setFree (s : State) (n : Nat) : RunKeeps s (s.setFree n) :=
  .of_eq rfl rfl rfl rfl rfl rfl rfl rfl rfl rfl rfl rfl rfl id

theorem RunKeeps.setRestartList (s : State) (l : List Listed) :
    RunKeeps s (s.setLoader { s.loader with restartList := l }) :=
  .of_eq rfl rfl rfl rfl rfl rfl rfl rfl rfl rfl rfl rfl rfl id

/-- The Flow Allotter's state of a tank, its peers kept. -/
theorem RunKeeps.modAllot (s : State) (n : Nat) (f : TankAllot → TankAllot)
    (h : ∀ a, ((f a).tank, (f a).peers) = (a.tank, a.peers)) : RunKeeps s (s.modAllot n f) :=
  .of_eq rfl rfl rfl rfl rfl rfl rfl rfl rfl rfl rfl rfl (map_modWhere _ _ _ _ fun a _ _ => h a) id

theorem RunKeeps.setLog (s : State) (l : DeliveryLog) (h : s.log.Ok → l.Ok) : RunKeeps s (s.setLog l) :=
  .of_eq rfl rfl rfl rfl rfl rfl rfl rfl rfl rfl rfl rfl rfl fun k => ⟨k.1, h k.2.1, k.2.2⟩

theorem RunKeeps.setCollection (s : State) (c : Option Collection) : RunKeeps s (s.setCollection c) :=
  RunKeeps.setLog s _ id

theorem RunKeeps.setAccounts (s : State) (a : Accounts) (h : s.accounts.Ok → a.Ok) : RunKeeps s (s.setAccounts a) :=
  .of_eq rfl rfl rfl rfl rfl rfl rfl rfl rfl rfl rfl rfl rfl fun k => ⟨k.1, k.2.1, h k.2.2.1, k.2.2.2⟩

theorem RunKeeps.setQueue (s : State) (q : List Slot) (h : s.link.Ok → Link.Ok { s.link with queue := q }) :
    RunKeeps s (s.setQueue q) :=
  .of_eq rfl rfl rfl rfl rfl rfl rfl rfl rfl rfl rfl rfl rfl fun k => ⟨h k.1, k.2⟩

/-- A Point Controller's own fields. -/
theorem RunKeeps.modPoint (s : State) (p : PointId) (f : Point → Point) (h1 : ∀ x, (f x).offHook = x.offHook)
    (h2 : ∀ x, (f x).permanent = x.permanent) (h3 : ∀ x, (f x).faultMeter = x.faultMeter)
    (h4 : ∀ x, (f x).faultHose = x.faultHose) : RunKeeps s (s.modPoint p f) where
  pending := rfl
  loader := rfl
  chans := fun _ => rfl
  hooks := fun q => by rw [State.getPoint_modPoint]; split <;> simp_all
  permanent := fun q => by rw [State.getPoint_modPoint]; split <;> simp_all
  nextRun := rfl
  peers := rfl
  book := rfl
  homes := rfl
  lines := rfl
  presence := rfl
  presenceTimer := rfl
  seq := rfl
  attempt := rfl
  zones := rfl
  beacon := rfl
  hoseWet := fun _ => rfl
  hoseSticky := fun _ => rfl
  meterFault := fun q => by rw [State.getPoint_modPoint]; split <;> simp_all
  hoseFault := fun q => by rw [State.getPoint_modPoint]; split <;> simp_all
  ok := id

/-- What a valve command changes in a channel. -/
theorem RunKeeps.modChan (s : State) (p : PointId) (f : Channel → Channel) (h : ∀ c, (f c).steady = c.steady) :
    RunKeeps s (s.modChan p f) where
  pending := rfl
  loader := rfl
  chans := fun q => by rw [State.getChan_modChan]; split <;> simp_all
  hooks := fun _ => rfl
  permanent := fun _ => rfl
  nextRun := rfl
  peers := rfl
  book := rfl
  homes := rfl
  lines := rfl
  presence := rfl
  presenceTimer := rfl
  seq := rfl
  attempt := rfl
  zones := rfl
  beacon := rfl
  hoseWet := fun _ => rfl
  hoseSticky := fun _ => rfl
  meterFault := fun _ => rfl
  hoseFault := fun _ => rfl
  ok := id

/-- A change of a Point Controller's own fields after an operation. -/
theorem RunKeeps.thenPoint {s t : State} (h : RunKeeps s t) {p : PointId} {f : Point → Point}
    (h1 : ∀ x, (f x).offHook = x.offHook) (h2 : ∀ x, (f x).permanent = x.permanent)
    (h3 : ∀ x, (f x).faultMeter = x.faultMeter) (h4 : ∀ x, (f x).faultHose = x.faultHose) : RunKeeps s (t.modPoint p f) :=
  h.trans (RunKeeps.modPoint t p f h1 h2 h3 h4)

/-- What a valve command changes in a channel, after an operation. -/
theorem RunKeeps.thenChan {s t : State} (h : RunKeeps s t) {p : PointId} {f : Channel → Channel}
    (hf : ∀ c, (f c).steady = c.steady) : RunKeeps s (t.modChan p f) :=
  h.trans (RunKeeps.modChan t p f hf)

/-- The Flow Allotter's state, after an operation. -/
theorem RunKeeps.thenAllot {s t : State} (h : RunKeeps s t) {n : Nat} {f : TankAllot → TankAllot}
    (hf : ∀ a, ((f a).tank, (f a).peers) = (a.tank, a.peers)) : RunKeeps s (t.modAllot n f) :=
  h.trans (RunKeeps.modAllot t n f hf)

/-- The over-rate count of a HOSE source. -/
theorem RunKeeps.setOverRate (s : State) (p : PointId) (n : Nat) :
    RunKeeps s (s.setHose p { s.getHose p with overRate := n }) where
  pending := rfl
  loader := rfl
  chans := fun _ => rfl
  hooks := fun _ => rfl
  permanent := fun _ => rfl
  nextRun := rfl
  peers := rfl
  book := rfl
  homes := rfl
  lines := rfl
  presence := rfl
  presenceTimer := rfl
  seq := rfl
  attempt := rfl
  zones := rfl
  beacon := rfl
  hoseWet := fun q => by rw [State.getHose_setHose]; split <;> simp_all
  hoseSticky := fun q => by rw [State.getHose_setHose]; split <;> simp_all
  meterFault := fun _ => rfl
  hoseFault := fun _ => rfl
  ok := id

/-! ### Folds -/

theorem RunKeeps.inOrder {α : Type} (l : List α) (f : α → State → State) (h : ∀ a s, RunKeeps s (f a s)) (s : State) :
    RunKeeps s (s.inOrder l f) := by
  unfold State.inOrder
  induction l generalizing s with
  | nil => exact RunKeeps.refl s
  | cons a l ih => exact (h a s).trans (ih (f a s))

theorem EventKeeps.inOrder {α : Type} (l : List α) (f : α → State → State) (h : ∀ a s, EventKeeps s (f a s)) (s : State) :
    EventKeeps s (s.inOrder l f) := by
  unfold State.inOrder
  induction l generalizing s with
  | nil => exact EventKeeps.refl s
  | cons a l ih => exact (h a s).trans (ih (f a s))

theorem RunKeeps.forEach {α : Type} (l : List α) (f : α → State → State) (h : ∀ a s, RunKeeps s (f a s)) (s : State) :
    RunKeeps s (s.forEach l f) := by
  unfold State.forEach
  refine RunKeeps.trans (t := if l.length < 2 then s else s.setFree (s.free + l.length)) ?_ ?_
  · exact RunKeeps.ite (RunKeeps.refl s) (RunKeeps.setFree s _)
  · exact RunKeeps.inOrder _ f h _

theorem EventKeeps.forEach {α : Type} (l : List α) (f : α → State → State) (h : ∀ a s, EventKeeps s (f a s)) (s : State) :
    EventKeeps s (s.forEach l f) := by
  unfold State.forEach
  refine EventKeeps.trans (t := if l.length < 2 then s else s.setFree (s.free + l.length)) ?_ ?_
  · exact EventKeeps.ite (EventKeeps.refl s) (RunKeeps.setFree s _).event
  · exact EventKeeps.inOrder _ f h _

theorem RunKeeps.choose (s : State) : RunKeeps s s.choose.2 := RunKeeps.setFree s _

end Sys2Proof.Machine
end

