-- ==== Sys2Proof/Laws/Queue.lean ====
section
/-! SUPPORT. The transmit queue and the restart list: placing a frame, and every operation that queues, withdraws or hands one, keeps the frame and the bounds. -/
namespace Sys2Proof.Machine

/-- The bounds of the queue, apart from the rest of the link. -/
abbrev QueueOk (q : List Slot) : Prop :=
  q.length ≤ Config.queueSlots ∧ (q.filterMap fun x => x.frame.body.subject).Nodup
    ∧ ∀ x ∈ q, (x.pending.all fun f => f.body.subject == x.frame.body.subject) = true

/-- Taking slots out keeps the bounds. -/
theorem QueueOk.sublist {q r : List Slot} (h : QueueOk q) (hr : r.Sublist q) : QueueOk r :=
  ⟨Nat.le_trans hr.length_le h.1, (hr.filterMap _).nodup h.2.1, fun x hx => h.2.2 x (hr.subset hx)⟩

/-- Changing slots in place, their subjects kept, keeps the bounds. -/
theorem QueueOk.map {q : List Slot} (h : QueueOk q) (f : Slot → Slot)
    (hs : ∀ x ∈ q, (f x).frame.body.subject = x.frame.body.subject)
    (hp : ∀ x ∈ q, ((f x).pending.all fun g => g.body.subject == (f x).frame.body.subject) = true) : QueueOk (q.map f) := by
  refine ⟨by simpa using h.1, ?_, ?_⟩
  · rw [List.filterMap_map]
    have hc : ∀ l : List Slot, (∀ x ∈ l, (f x).frame.body.subject = x.frame.body.subject) →
        l.filterMap ((fun x => x.frame.body.subject) ∘ f) = l.filterMap fun x => x.frame.body.subject := by
      intro l
      induction l with
      | nil => intro _; rfl
      | cons a l ih =>
        intro hl
        rw [List.filterMap_cons, List.filterMap_cons, ih fun x hx => hl x (by simp [hx])]
        simp only [Function.comp, hl a (by simp)]
    rw [hc q hs]
    exact h.2.1
  · intro y hy
    obtain ⟨x, hx, rfl⟩ := List.mem_map.mp hy
    exact hp x hx

/-- A new slot whose subject no slot has. -/
theorem QueueOk.push {q : List Slot} (h : QueueOk q) (hl : q.length < Config.queueSlots) (f : Frame) (c : Bool)
    (hf : q.any (Slot.sameSubject f.body) = false) : QueueOk (q ++ [newSlot f c]) := by
  refine ⟨by simp only [List.length_append, List.length_cons, List.length_nil]; omega, ?_, ?_⟩
  · rw [List.filterMap_append]
    cases hs : f.body.subject with
    | none => simpa [newSlot, hs] using h.2.1
    | some k =>
      have hk : (([newSlot f c].filterMap fun x => x.frame.body.subject)) = [k] := by simp [newSlot, hs]
      rw [hk, List.nodup_append]
      refine ⟨h.2.1, by simp, ?_⟩
      intro a ha b hb
      obtain ⟨x, hx, hxa⟩ := List.mem_filterMap.mp ha
      rw [List.mem_singleton.mp hb]
      rintro rfl
      have := List.any_eq_false.mp hf x hx
      simp [Slot.sameSubject, hs, hxa] at this
  · intro x hx
    rcases List.mem_append.mp hx with hx | hx
    · exact h.2.2 x hx
    · rw [List.mem_singleton.mp hx]; rfl

theorem victim_mem {q : List Slot} {v : Slot} (h : victim q = some v) : v ∈ q ∧ v.onLine = false := by
  have := List.mem_of_find?_eq_some h
  have := List.mem_filter.mp this
  exact ⟨this.1, by simpa using this.2⟩

theorem dropVictim_length {q : List Slot} {v : Slot} (h : victim q = some v) : (dropVictim v q).length = q.length - 1 := by
  have hv := victim_mem h
  unfold dropVictim
  exact List.length_eraseP_of_mem hv.1 (by simp [hv.2])

theorem dropVictim_sublist (v : Slot) (q : List Slot) : (dropVictim v q).Sublist q := List.eraseP_sublist

/-- R171: the transmit queue holds at most 8 slots, at most one for each subject. -/
theorem place_ok {q : List Slot} (f : Frame) (c : Bool) (h : QueueOk q) : QueueOk (place q f c).1 := by
  unfold place
  split
  · next hs =>
    refine h.map _ ?_ ?_
    · intro x hx
      split
      · next hx' =>
        have hb : x.frame.body.subject = f.body.subject := by
          simp only [Slot.sameSubject, Bool.and_eq_true, beq_iff_eq] at hx'
          exact hx'.2
        unfold Slot.replace
        split
        · rfl
        · exact hb.symm
      · rfl
    · intro x hx
      split
      · next hx' =>
        have hb : x.frame.body.subject = f.body.subject := by
          simp only [Slot.sameSubject, Bool.and_eq_true, beq_iff_eq] at hx'
          exact hx'.2
        have hp := h.2.2 x hx
        unfold Slot.replace
        split
        · simp [hb]
        · rw [← hb]; exact hp
      · exact h.2.2 x hx
  · next hs =>
    have hs' : q.any (Slot.sameSubject f.body) = false := by simpa using hs
    split
    · next hl => exact h.push hl f c hs'
    · split
      · next v hv =>
        split
        · have hd : QueueOk (dropVictim v q) := h.sublist (dropVictim_sublist v q)
          refine hd.push ?_ f c ?_
          · rw [dropVictim_length hv]
            have := h.1
            have : 0 < q.length := List.length_pos_of_mem (victim_mem hv).1
            omega
          · rw [List.any_eq_false] at hs' ⊢
            intro x hx
            exact hs' x ((dropVictim_sublist v q).subset hx)
        · exact h
      · exact h

namespace State

theorem setQueue_keeps (s : State) (q : List Slot) (h : QueueOk s.link.queue → QueueOk q) : RunKeeps s (s.setQueue q) :=
  RunKeeps.setQueue s q h

theorem batchLeft_keeps (s : State) (b : Body) : RunKeeps s (s.batchLeft b) := by
  unfold batchLeft
  split
  · exact RunKeeps.setCollection s _
  · exact RunKeeps.refl s

theorem noteLeft_keeps (s : State) : RunKeeps s s.noteLeft := by
  unfold noteLeft
  exact RunKeeps.ite (RunKeeps.refl s) (RunKeeps.setMarks s _)

theorem noteDropped_keeps (q : List Slot) (f : Frame) (s : State) : RunKeeps s (noteDropped q f s) :=
  RunKeeps.ite (noteLeft_keeps s) (RunKeeps.refl s)

theorem batchStep_keeps (s : State) : RunKeeps s s.batchStep.1 := by
  unfold batchStep
  split
  · exact RunKeeps.refl s
  · split
    · exact RunKeeps.refl s
    · split
      · exact RunKeeps.setCollection s _
      · next f c' _ =>
        have h1 : RunKeeps s ((s.setCollection (some c')).setQueue (place s.link.queue f true).1) :=
          (RunKeeps.setCollection s _).trans (setQueue_keeps _ _ (place_ok f true))
        dsimp only
        split
        · exact h1
        · split
          · exact (h1.trans (noteDropped_keeps _ _ _)).trans (batchLeft_keeps _ _)
          · exact h1.trans (noteDropped_keeps _ _ _)

theorem batchLoop_keeps (n : Nat) (s : State) : RunKeeps s (s.batchLoop n) := by
  induction n generalizing s with
  | zero => exact RunKeeps.refl s
  | succ n ih =>
    unfold batchLoop
    split
    · exact (batchStep_keeps s).trans (ih _)
    · exact batchStep_keeps s

theorem advanceCollection_keeps (s : State) : RunKeeps s s.advanceCollection := by
  unfold advanceCollection
  split
  · exact batchLoop_keeps _ s
  · exact RunKeeps.refl s

theorem tellLeft_keeps (d : Slot) (s : State) : RunKeeps s (tellLeft d s) := by
  unfold tellLeft
  split
  · exact (batchLeft_keeps s _).trans (advanceCollection_keeps _)
  · exact RunKeeps.refl s

theorem placeTold_keeps (f : Frame) (s : State) : RunKeeps s (placeTold f s) := by
  unfold placeTold
  have h : RunKeeps s (s.setQueue (place s.link.queue f false).1) := setQueue_keeps s _ (place_ok f false)
  dsimp only
  split
  · exact h
  · exact (h.trans (noteDropped_keeps _ _ _)).trans (tellLeft_keeps _ _)

theorem handOne_keeps (s : State) : RunKeeps s s.handOne := by
  unfold handOne
  split
  · exact RunKeeps.setRestartList s _
  · exact (RunKeeps.setRestartList s _).trans (placeTold_keeps _ _)

theorem handNow_keeps (s : State) : RunKeeps s s.handNow := (RunKeeps.setMarks s _).trans (handOne_keeps _)

theorem handMaybe_keeps (s : State) : RunKeeps s s.handMaybe := by
  unfold handMaybe
  split
  · exact (RunKeeps.choose s).trans (RunKeeps.ite (handNow_keeps _) (RunKeeps.refl _))
  · exact RunKeeps.refl s

theorem supersede_keeps (b : Body) (s : State) : RunKeeps s (s.supersede b) := by
  unfold supersede
  split
  · exact RunKeeps.setRestartList s _
  · exact RunKeeps.refl s

/-- Queueing a frame (R171). -/
theorem queueFrame_keeps (f : Frame) (s : State) : RunKeeps s (s.queueFrame f) := by
  unfold queueFrame
  split
  · exact RunKeeps.setRestartList s _
  · split
    · exact RunKeeps.refl s
    · have h : RunKeeps s ((s.supersede f.body).setQueue (place (s.supersede f.body).link.queue f false).1) :=
        (supersede_keeps _ s).trans (setQueue_keeps _ _ (place_ok f false))
      dsimp only
      split
      · exact h
      · exact ((h.trans (noteDropped_keeps _ _ _)).trans (handMaybe_keeps _)).trans (tellLeft_keeps _ _)

theorem queueFrames_keeps (s : State) (l : List Frame) : RunKeeps s (s.queueFrames l) :=
  RunKeeps.inOrder l queueFrame queueFrame_keeps s

theorem slotLeaves_keeps (d : Slot) (s : State) : RunKeeps s (slotLeaves d s) := by
  unfold slotLeaves
  dsimp only
  split
  · exact ((noteLeft_keeps s).trans (handMaybe_keeps _)).trans (tellLeft_keeps _ _)
  · exact noteLeft_keeps s

theorem withdraw_keeps (pick : Slot → Bool) (s : State) : RunKeeps s (s.withdraw pick) := by
  unfold withdraw
  split
  · exact RunKeeps.refl s
  · split
    · refine setQueue_keeps s _ fun h => h.map _ ?_ ?_
      · intro x _; split <;> rfl
      · intro x hx; have := h.2.2 x hx; split <;> exact this
    · exact (setQueue_keeps s _ fun h => h.sublist List.eraseP_sublist).trans (noteLeft_keeps _)

theorem finish_keeps (s : State) : RunKeeps s s.finish := by
  unfold finish
  exact (RunKeeps.ite (handNow_keeps s) (RunKeeps.refl s)).trans (RunKeeps.setMarks _ _)

@[simp] theorem finish_marks (s : State) : s.finish.marks = EventMarks.clear := rfl

/-- With no mark set, an event's end changes nothing. -/
theorem finish_of_clear {s : State} (h : s.marks = EventMarks.clear) : s.finish = s := by
  cases s
  simp only at h
  subst h
  rfl

end State

end Sys2Proof.Machine
end

