-- ==== Sys2Proof/Laws/Accounts.lean ====
section
/-! SUPPORT. The Account Cache and the ring of delivery records: their operations keep the frame and the bounds. -/
namespace Sys2Proof.Machine

/-- The bounds of the cache's records. -/
abbrev CacheOk (l : List CacheRec) : Prop := l.length ≤ Config.cacheRecords ∧ (l.map fun r => r.acc.tag).Nodup

/-- The bounds of the seeks. -/
abbrev SeeksOk (l : List Seek) : Prop := l.length ≤ Config.maxSeeks ∧ (l.map fun k => k.tag).Nodup

theorem evict_sublist (l : List CacheRec) : (evict l).Sublist l := by
  unfold evict
  split
  · have h : ((l.reverse.eraseP fun r => r.attached == 0).reverse).Sublist l.reverse.reverse :=
      List.reverse_sublist.mpr List.eraseP_sublist
    rwa [List.reverse_reverse] at h
  · exact List.dropLast_sublist l

/-- R117: eviction takes one record out. -/
theorem evict_length (l : List CacheRec) : (evict l).length = l.length - 1 := by
  unfold evict
  split
  · next h =>
    obtain ⟨r, hr, hz⟩ := List.any_eq_true.mp h
    rw [List.length_reverse, List.length_eraseP_of_mem (List.mem_reverse.mpr hr) hz, List.length_reverse]
  · exact List.length_dropLast

/-- R114, R117: insertion keeps the cache at 64 records, one for each tag. -/
theorem insertAccount_ok (r : AccountRec) {l : List CacheRec} (h : CacheOk l) : CacheOk (insertAccount r l) := by
  unfold insertAccount
  have hsub : (l.filter fun x => x.acc.tag != r.tag).Sublist l := List.filter_sublist
  have hno : ∀ m : List CacheRec, m.Sublist (l.filter fun x => x.acc.tag != r.tag) →
      ((⟨r, 0⟩ :: m).map fun x => x.acc.tag).Nodup := by
    intro m hm
    rw [List.map_cons, List.nodup_cons]
    refine ⟨?_, ((hm.trans hsub).map _).nodup h.2⟩
    intro hmem
    obtain ⟨x, hx, hxt⟩ := List.mem_map.mp hmem
    have := (List.mem_filter.mp (hm.subset hx)).2
    simp [hxt] at this
  have hlen := hsub.length_le
  have h1 := h.1
  have hc : 0 < Config.cacheRecords := by decide
  dsimp only
  split
  · next hl => exact ⟨by rw [List.length_cons]; omega, hno _ (List.Sublist.refl _)⟩
  · next hl =>
    refine ⟨?_, hno _ (evict_sublist _)⟩
    rw [List.length_cons, evict_length]
    omega

theorem abandon_sublist (l : List Seek) : (abandon l).Sublist l := by
  unfold abandon
  split
  · exact List.eraseP_sublist
  · exact List.drop_sublist 1 l

/-- R122: abandoning takes one seek out. -/
theorem abandon_length (l : List Seek) : (abandon l).length = l.length - 1 := by
  unfold abandon
  split
  · next h =>
    obtain ⟨k, hk, he⟩ := List.any_eq_true.mp h
    exact List.length_eraseP_of_mem hk he
  · exact List.length_drop ..

/-- R154 to R156: the log numbers stay consecutive when the next one is written. -/
theorem consecutive_append (n : Nat) (r : LogRec) (hr : r.entry.number = n) :
    ∀ l : List LogRec, consecutive n l = true → consecutive (nextLogNumber n) (l ++ [r]) = true := by
  intro l
  induction l with
  | nil => intro _; simp [consecutive, hr]
  | cons a l ih =>
    intro h
    cases l with
    | nil => simpa [consecutive, hr] using h
    | cons b l =>
      simp only [consecutive, Bool.and_eq_true] at h
      show (nextLogNumber a.entry.number == b.entry.number && consecutive (nextLogNumber n) ((b :: l) ++ [r])) = true
      simp only [Bool.and_eq_true]
      exact ⟨h.1, ih h.2⟩

theorem consecutive_tail (n : Nat) (l : List LogRec) (h : consecutive n l = true) : consecutive n (l.drop 1) = true := by
  match l with
  | [] => rfl
  | [a] => rfl
  | a :: b :: l =>
    simp only [consecutive, Bool.and_eq_true] at h
    exact h.2

/-- A change of records that keeps their numbers. -/
theorem consecutive_map (n : Nat) (f : LogRec → LogRec) (hf : ∀ r, (f r).entry.number = r.entry.number) :
    ∀ l : List LogRec, consecutive n (l.map f) = consecutive n l := by
  intro l
  induction l with
  | nil => rfl
  | cons a l ih =>
    cases l with
    | nil => simp [consecutive, hf]
    | cons b l =>
      simp only [List.map_cons, consecutive, hf]
      rw [← ih]
      rfl

namespace State

theorem modAccount_keeps (s : State) (tag : Tag) (f : CacheRec → CacheRec)
    (hf : ∀ r ∈ s.accounts.cache, (r.acc.tag == tag) = true → (f r).acc.tag = r.acc.tag) :
    RunKeeps s (s.modAccount tag f) :=
  RunKeeps.setAccounts s _ fun h =>
    ⟨by rw [length_modWhere]; exact h.1, by rw [map_modWhere _ _ _ _ hf]; exact h.2.1, h.2.2⟩

theorem touch_keeps (s : State) (tag : Tag) : RunKeeps s (s.touch tag) := by
  unfold touch account
  split
  · next r hr =>
    have hmem : r ∈ s.accounts.cache := List.mem_of_find?_eq_some hr
    have hp : (r.acc.tag == tag) = true := by simpa using List.find?_some hr
    have hperm : (r :: s.accounts.cache.eraseP fun x => x.acc.tag == tag).Perm s.accounts.cache := by
      have : ∀ l : List CacheRec, l.find? (fun x => x.acc.tag == tag) = some r →
          (r :: l.eraseP fun x => x.acc.tag == tag).Perm l := by
        intro l
        induction l with
        | nil => intro h; cases h
        | cons a l ih =>
          intro h
          rw [List.find?_cons] at h
          rw [List.eraseP_cons]
          cases ha : (a.acc.tag == tag) with
          | true =>
            rw [ha] at h
            simp only [Option.some.injEq] at h
            subst h
            exact List.Perm.refl _
          | false =>
            rw [ha] at h
            exact (List.Perm.swap ..).trans (List.Perm.cons a (ih h))
      exact this _ hr
    exact RunKeeps.setAccounts s _ fun h =>
      ⟨by rw [hperm.length_eq]; exact h.1, ((hperm.map _).nodup_iff).mpr h.2.1, h.2.2⟩
  · exact RunKeeps.refl s

theorem attach_keeps (s : State) (tag : Tag) : RunKeeps s (s.attach tag) := modAccount_keeps s tag _ fun _ _ _ => rfl

theorem detach_keeps (s : State) (tag : Tag) : RunKeeps s (s.detach tag) := modAccount_keeps s tag _ fun _ _ _ => rfl

theorem setSeeks_keeps (s : State) (l : List Seek) (h : SeeksOk s.accounts.seeks → SeeksOk l) : RunKeeps s (s.setSeeks l) :=
  RunKeeps.setAccounts s _ fun k => ⟨k.1, k.2.1, h k.2.2⟩

theorem leaveSeeks_keeps (s : State) (p : PointId) : RunKeeps s (s.leaveSeeks p) :=
  setSeeks_keeps s _ fun h => ⟨by simpa using h.1, by rw [List.map_map]; exact h.2⟩

/-- R118, R122: at most 6 seeks, one for each tag. -/
theorem seekOrJoin_keeps (s : State) (tag : Tag) (p : PointId) (shift : Nat) : RunKeeps s (s.seekOrJoin tag p shift) := by
  unfold seekOrJoin
  split
  · exact setSeeks_keeps s _ fun h => ⟨by rw [length_modWhere]; exact h.1, by rw [map_modWhere]; exact h.2; intros; rfl⟩
  · next hn =>
    refine RunKeeps.trans (setSeeks_keeps s _ fun h => ?_) (queueFrame_keeps _ _)
    have hnew : ∀ m : List Seek, m.Sublist s.accounts.seeks →
        ((m ++ [(⟨tag, [p], shift, none, Config.seekMs⟩ : Seek)]).map fun k => k.tag).Nodup := by
      intro m hm
      rw [List.map_append, List.nodup_append]
      refine ⟨(hm.map _).nodup h.2, by simp, ?_⟩
      intro a ha b hb
      obtain ⟨x, hx, rfl⟩ := List.mem_map.mp ha
      rw [List.map_singleton, List.mem_singleton] at hb
      subst hb
      intro hxt
      unfold seekFor at hn
      have := List.find?_eq_none.mp hn x (hm.subset hx)
      simp [hxt] at this
    have h1 : s.accounts.seeks.length ≤ Config.maxSeeks := h.1
    have hc : 0 < Config.maxSeeks := by decide
    split
    · next hl => exact ⟨by simp only [List.length_append, List.length_cons, List.length_nil]; omega, hnew _ (List.Sublist.refl _)⟩
    · next hl =>
      refine ⟨?_, hnew _ (abandon_sublist _)⟩
      simp only [List.length_append, List.length_cons, List.length_nil, abandon_length]
      omega

theorem setPressing_keeps (s : State) : RunKeeps s s.setPressing := RunKeeps.setLog s _ id

/-- R155, R156: a write keeps the ring's bounds. -/
theorem writeRecord_keeps (s : State) (r : DeliveryRec) : RunKeeps s (s.writeRecord r) := by
  unfold writeRecord
  refine RunKeeps.trans (RunKeeps.setLog s _ fun h => ?_) (setPressing_keeps _)
  obtain ⟨h1, h2, h3⟩ := h
  have hpos : 0 < Config.logRecords := by decide
  refine ⟨?_, ?_, ?_⟩
  · dsimp only
    rw [List.length_append]
    split
    · next hf =>
      have := of_decide_eq_true hf
      rw [List.length_drop]
      simp only [List.length_cons, List.length_nil]
      omega
    · next hf =>
      have : ¬ Config.logRecords ≤ s.log.records.length := fun hc => hf (decide_eq_true hc)
      simp only [List.length_cons, List.length_nil]
      omega
  · dsimp only
    refine consecutive_append s.log.next _ rfl _ ?_
    split
    · exact consecutive_tail _ _ h2
    · exact h2
  · dsimp only
    rw [List.filter_append, List.length_append, h3]
    cases hl : s.log.records with
    | nil => simp
    | cons x l =>
      by_cases hf : Config.logRecords ≤ (x :: l).length
      · rw [List.length_cons] at hf
        cases hc : x.collected <;> simp [hf, hc]
      · rw [List.length_cons] at hf
        cases hc : x.collected <;> simp [hf, hc]

theorem fillRecord_keeps (s : State) (n : Nat) (f : DeliveryRec → DeliveryRec) (hf : ∀ d, (f d).number = d.number) :
    RunKeeps s (s.fillRecord n f) := by
  unfold fillRecord
  refine RunKeeps.setLog s _ fun h => ⟨by rw [length_modWhere]; exact h.1, ?_, ?_⟩
  · unfold modWhere
    rw [consecutive_map]
    · exact h.2.1
    · intro r; split
      · exact hf r.entry
      · rfl
  · dsimp only
    unfold modWhere
    rw [h.2.2, List.filter_map, List.length_map]
    congr 1
    apply List.filter_congr
    intro r _
    simp only [Function.comp]
    split <;> rfl

end State

end Sys2Proof.Machine
end

