-- ==== Sys2Proof/Laws/Runs.lean ====
section
/-! SUPPORT. The operations of a run (02, 03): each keeps the run frame and the bounds. -/
namespace Sys2Proof.Machine.State

/-! ### Valve, pump, DENY -/

theorem closeValve_keeps (s : State) (p : PointId) : RunKeeps s (s.closeValve p) := by
  unfold closeValve
  refine RunKeeps.ite ?_ (RunKeeps.refl s)
  refine RunKeeps.trans (RunKeeps.thenChan (RunKeeps.thenPoint (RunKeeps.refl s) ?_ ?_ ?_ ?_) ?_) (RunKeeps.setOverRate _ p 0)
  all_goals (intro _; rfl)

theorem pumpOff_keeps (s : State) (p : PointId) : RunKeeps s (s.pumpOff p) := by
  unfold pumpOff
  exact RunKeeps.ite (RunKeeps.modPoint s p _ (fun _ => rfl) (fun _ => rfl) (fun _ => rfl) fun _ => rfl) (RunKeeps.refl s)

theorem deny_keeps (s : State) (terminal point : Nat) (tag : Tag) (r : DenyReason) : RunKeeps s (s.deny terminal point tag r) :=
  queueFrame_keeps _ s

theorem denyPending_keeps (s : State) (p : PointId) (r : DenyReason) : RunKeeps s (s.denyPending p r) := by
  unfold denyPending
  split
  · exact RunKeeps.thenPoint ((deny_keeps s _ _ _ _).trans (leaveSeeks_keeps _ p)) (fun _ => rfl) (fun _ => rfl) (fun _ => rfl) fun _ => rfl
  · exact RunKeeps.refl s

theorem leaveSeeking_keeps (s : State) (p : PointId) : RunKeeps s (s.leaveSeeking p) := by
  unfold leaveSeeking
  refine RunKeeps.modPoint s p _ ?_ ?_ ?_ ?_ <;> intro x <;> split <;> rfl

/-! ### A run's end -/

theorem endFirst_keeps (s : State) (p : PointId) : RunKeeps s (s.endFirst p) := by
  unfold endFirst
  have h : RunKeeps s ((s.closeValve p).modPoint p fun x =>
      { x with prime := none, noLift := none, queue := none, hold := none, stall := none, progress := none, target := 0 }) :=
    RunKeeps.thenPoint (closeValve_keeps s p) (fun _ => rfl) (fun _ => rfl) (fun _ => rfl) fun _ => rfl
  dsimp only
  split
  · exact RunKeeps.thenAllot h fun _ => rfl
  · exact h

theorem closeRecord_tag (own : Nat) (r : RunRec) (std : Nat) (a : AccountRec) : (closeRecord own r std a).acc.tag = a.tag := by
  have hr : ∀ n b, (rollShift n b).tag = b.tag := fun n b => by unfold rollShift; split <;> rfl
  have ha : ∀ g n b, (addTaken g n b).tag = b.tag := fun g n b => by cases g <;> rfl
  have hb : ∀ v n h b, (bookHours v n h b).tag = b.tag := fun v n h b => by cases v <;> rfl
  have hf : ∀ x b, (foldSample x b).tag = b.tag := by
    intro x b
    unfold foldSample
    split
    · rfl
    · split
      · rfl
      · rfl
      · split <;> rfl
  show (foldSample _ _).tag = a.tag
  rw [hf, hb, ha, hr]

theorem account_tag {s : State} {tag : Tag} {c : CacheRec} (h : s.account tag = some c) : c.acc.tag = tag := by
  have := List.find?_some h
  simpa using this

theorem closeAccount_keeps (s : State) (r : RunRec) (std number : Nat) : RunKeeps s (s.closeAccount r std number) := by
  unfold closeAccount
  split
  · exact RunKeeps.refl s
  · next c hc =>
    have h1 : RunKeeps s (s.modAccount r.tag fun x => { x with acc := (closeRecord s.own r std c.acc).acc }) :=
      modAccount_keeps s r.tag _ fun x _ hx => by
        rw [beq_iff_eq] at hx
        show (closeRecord s.own r std c.acc).acc.tag = x.acc.tag
        rw [closeRecord_tag, account_tag hc, hx]
    refine RunKeeps.trans ?_ (queueFrame_keeps _ _)
    refine RunKeeps.trans ?_ (fillRecord_keeps _ number _ ?_)
    · exact h1.trans (touch_keeps _ _)
    · intro d
      rfl

theorem lock_keeps (s : State) (p : PointId) : RunKeeps s (s.lock p) :=
  RunKeeps.modPoint s p _ (fun _ => rfl) (fun _ => rfl) (fun _ => rfl) fun _ => rfl

theorem endLinger_keeps (s : State) (p : PointId) : RunKeeps s (s.endLinger p) := by
  unfold endLinger
  exact RunKeeps.ite (RunKeeps.modPoint s p _ (fun _ => rfl) (fun _ => rfl) (fun _ => rfl) fun _ => rfl)
    (RunKeeps.thenPoint (pumpOff_keeps s p) (fun _ => rfl) (fun _ => rfl) (fun _ => rfl) fun _ => rfl)

theorem endState_keeps (s : State) (p : PointId) (reason : EndReason) : RunKeeps s (s.endState p reason) := by
  have hp := pumpOff_keeps s p
  cases reason with
  | quarantine =>
    show RunKeeps s ((s.pumpOff p).modPoint p fun x => { x with st := .idle })
    exact RunKeeps.thenPoint hp (fun _ => rfl) (fun _ => rfl) (fun _ => rfl) fun _ => rfl
  | spill =>
    show RunKeeps s ((s.pumpOff p).modPoint p fun x => { x with st := .locked, lockCause := .zone })
    exact RunKeeps.thenPoint hp (fun _ => rfl) (fun _ => rfl) (fun _ => rfl) fun _ => rfl
  | meter => exact hp.trans (lock_keeps _ p)
  | hose => exact hp.trans (lock_keeps _ p)
  | restart =>
    unfold endState
    dsimp only
    split
    · exact RunKeeps.thenPoint hp (fun _ => rfl) (fun _ => rfl) (fun _ => rfl) fun _ => rfl
    · exact hp.trans (lock_keeps _ p)
  | preset => exact endLinger_keeps s p
  | hangup => exact endLinger_keeps s p
  | noLift => exact endLinger_keeps s p
  | noCapacity => exact endLinger_keeps s p
  | holdExpired => exact endLinger_keeps s p
  | cancel => exact endLinger_keeps s p
  | stall => exact endLinger_keeps s p
  | reserve => exact endLinger_keeps s p

theorem noteEnded_keeps (s : State) (p : PointId) (tank : Nat) (reason : EndReason) :
    RunKeeps s (s.noteEnded p tank reason) := RunKeeps.ite (RunKeeps.setMarks s _) (RunKeeps.refl s)

theorem endSecond_keeps (s : State) (p : PointId) (reason : EndReason) : RunKeeps s (s.endSecond p reason) := by
  unfold endSecond
  split
  · exact RunKeeps.refl s
  · next r _ =>
    have h := (writeRecord_keeps s (s.deliveryRecord p r reason)).trans
      (closeAccount_keeps _ r (s.deliveryRecord p r reason).standard (s.deliveryRecord p r reason).number)
    refine RunKeeps.trans ?_ (endState_keeps _ p reason)
    refine RunKeeps.trans ?_ (detach_keeps _ _)
    exact RunKeeps.thenPoint ((h.trans (queueFrame_keeps _ _)).trans (noteEnded_keeps _ p _ reason)) (fun _ => rfl) (fun _ => rfl)
      (fun _ => rfl) fun _ => rfl

/-! ### The Flow Allotter -/

theorem openValve_keeps (s : State) (p : PointId) : RunKeeps s (s.openValve p) := by
  unfold openValve
  split
  · refine RunKeeps.thenChan (RunKeeps.thenPoint (RunKeeps.refl s) ?_ ?_ ?_ ?_) ?_
    all_goals (intro _; rfl)
  · exact RunKeeps.refl s

theorem admit_keeps (s : State) (tank : Nat) (p : PointId) : RunKeeps s (s.admitPoint tank p) := by
  unfold admitPoint
  refine RunKeeps.trans ?_ (openValve_keeps _ p)
  refine RunKeeps.thenAllot (RunKeeps.refl s) ?_
  intro _
  rfl

theorem retryHeads_keeps (tank n : Nat) (s : State) : RunKeeps s (retryHeads tank n s) := by
  induction n generalizing s with
  | zero => exact RunKeeps.refl s
  | succ n ih =>
    unfold retryHeads
    split
    · exact RunKeeps.refl s
    · next p _ _ => exact RunKeeps.ite ((admit_keeps s tank p).trans (ih _)) (RunKeeps.refl s)

theorem endOpening_keeps (s : State) (p : PointId) : RunKeeps s (s.endOpening p) :=
  (endFirst_keeps s p).trans (endSecond_keeps _ p .reserve)

theorem setTarget_keeps (s : State) (p : PointId) (t : Nat) : RunKeeps s (s.setTarget p t) :=
  RunKeeps.modPoint s p _ (fun _ => rfl) (fun _ => rfl) (fun _ => rfl) fun _ => rfl

theorem queueDraw_keeps (s : State) (tank : Nat) : RunKeeps s (s.queueDraw tank) := by
  unfold queueDraw
  split
  · refine RunKeeps.trans ?_ (queueFrame_keeps _ _)
    refine RunKeeps.thenAllot (RunKeeps.refl s) ?_
    intro _
    rfl
  · exact RunKeeps.refl s

theorem setTargets_keeps (l : List (PointId × Nat)) (s : State) :
    RunKeeps s (l.foldl (fun s e => s.setTarget e.1 e.2) s) := by
  induction l generalizing s with
  | nil => exact RunKeeps.refl s
  | cons a l ih => exact (setTarget_keeps s a.1 a.2).trans (ih _)

theorem allotShares_keeps (s : State) (tank : Nat) : RunKeeps s (s.allotShares tank) := by
  have h : RunKeeps s (((s.targets tank).foldl (fun s e => s.setTarget e.1 e.2) s).modAllot tank fun t =>
      { t with own := ((s.targets tank).map (·.2)).sum }) :=
    RunKeeps.thenAllot (setTargets_keeps _ s) fun _ => rfl
  unfold allotShares
  dsimp only
  split
  · exact RunKeeps.ite (h.trans (queueDraw_keeps _ tank)) h
  · exact h

theorem recomputeLoop_keeps (tank n : Nat) (s : State) : RunKeeps s (s.recomputeLoop tank n) := by
  induction n generalizing s with
  | zero => exact RunKeeps.refl s
  | succ n ih =>
    have h := ((retryHeads_keeps tank (s.waiting tank).length s).trans (RunKeeps.forEach
      (openedShort s (retryHeads tank (s.waiting tank).length s) tank) _ (fun p s => endOpening_keeps s p) _)).trans
        (allotShares_keeps _ tank)
    unfold recomputeLoop
    exact RunKeeps.ite h (h.trans (ih _))

/-- R67: a tank's allotment recomputed. -/
theorem recompute_keeps (s : State) (tank : Nat) : RunKeeps s (s.recompute tank) := recomputeLoop_keeps tank _ s

/-- R49: a run's end. -/
theorem endRun_keeps (s : State) (p : PointId) (reason : EndReason) : RunKeeps s (s.endRun p reason) := by
  unfold endRun
  dsimp only
  split
  · exact RunKeeps.refl s
  · refine RunKeeps.trans ?_ (endSecond_keeps _ p reason)
    exact RunKeeps.ite ((endFirst_keeps s p).trans (recompute_keeps _ _)) (endFirst_keeps s p)

theorem askAdmission_keeps (s : State) (p : PointId) : RunKeeps s (s.askAdmission p) := by
  unfold askAdmission
  split
  · exact RunKeeps.refl s
  · next r _ =>
    split
    · refine RunKeeps.trans ?_ (recompute_keeps _ _)
      exact RunKeeps.ite ((admit_keeps s r.tank p).trans (endRun_keeps _ p .reserve)) (admit_keeps s r.tank p)
    · refine RunKeeps.trans ?_ (recompute_keeps _ _)
      refine RunKeeps.thenAllot (RunKeeps.thenPoint (RunKeeps.refl s) ?_ ?_ ?_ ?_) ?_
      all_goals (intro _; rfl)

theorem enterReady_keeps (s : State) (p : PointId) : RunKeeps s (s.enterReady p) := by
  unfold enterReady
  split
  · exact RunKeeps.modPoint s p _ (fun _ => rfl) (fun _ => rfl) (fun _ => rfl) fun _ => rfl
  · exact RunKeeps.refl s

/-! ### Ends of several runs -/

theorem reserveSweep_keeps (s : State) (tank : Nat) : RunKeeps s (s.reserveSweep tank) :=
  RunKeeps.forEach _ _ (fun p s => endRun_keeps s p .reserve) s

theorem quarantinePoint_keeps (s : State) (p : PointId) : RunKeeps s (s.quarantinePoint p) := by
  unfold quarantinePoint
  exact RunKeeps.ite (endRun_keeps s p _)
    (RunKeeps.ite ((denyPending_keeps s p _).trans (leaveSeeking_keeps _ p)) (RunKeeps.refl s))

theorem leaveQueues_keeps (s : State) (ps : List PointId) : RunKeeps s (s.leaveQueues ps) :=
  .of_eq rfl rfl rfl rfl rfl rfl rfl rfl rfl rfl rfl rfl (by simp [leaveQueues]) id

/-- No point leaves its queue. -/
@[simp] theorem leaveQueues_nil (s : State) : s.leaveQueues [] = s := by simp [leaveQueues, setAllots]

theorem tankAllot_leaveQueues (s : State) (ps : List PointId) (tank : Nat) : (s.leaveQueues ps).tankAllot tank
    = (s.tankAllot tank).map fun t => { t with queue := t.queue.filter fun q => !ps.contains q } := by
  unfold leaveQueues tankAllot
  rw [setAllots_allot, List.find?_map]
  rfl

/-- The points named wait nowhere; the others wait as they waited. -/
theorem waiting_leaveQueues (s : State) (ps : List PointId) (tank : Nat) :
    (s.leaveQueues ps).waiting tank = (s.waiting tank).filter fun q => !ps.contains q := by
  unfold waiting
  rw [tankAllot_leaveQueues]
  cases s.tankAllot tank <;> rfl

theorem admitted_leaveQueues (s : State) (ps : List PointId) (tank : Nat) :
    (s.leaveQueues ps).admitted tank = s.admitted tank := by
  unfold admitted
  rw [tankAllot_leaveQueues]
  cases s.tankAllot tank <;> rfl

theorem quarantineTank_keeps (s : State) (tank : Nat) : RunKeeps s (s.quarantineTank tank) :=
  (leaveQueues_keeps s _).trans (RunKeeps.forEach _ _ (fun p s => quarantinePoint_keeps s p) _)

theorem holdPoint_keeps (s : State) (p : PointId) : RunKeeps s (s.holdPoint p) := by
  unfold holdPoint
  split
  · refine RunKeeps.ite ?_ (RunKeeps.refl s)
    refine RunKeeps.trans ?_ (recompute_keeps _ _)
    refine RunKeeps.thenAllot (RunKeeps.thenPoint (closeValve_keeps s p) ?_ ?_ ?_ ?_) ?_
    all_goals (intro _; rfl)
  · exact RunKeeps.refl s

/-- HOLD (R42). -/
theorem takeHold_keeps (point : Nat) (run : Option Nat) (s : State) : RunKeeps s (s.takeHold point run) := by
  unfold takeHold
  split
  · exact RunKeeps.ite (holdPoint_keeps s _) (RunKeeps.refl s)
  · exact RunKeeps.refl s

/-- RESUME (R44). -/
theorem takeResume_keeps (point : Nat) (run : Option Nat) (s : State) : RunKeeps s (s.takeResume point run) := by
  unfold takeResume
  split
  · refine RunKeeps.ite (RunKeeps.trans ?_ (askAdmission_keeps _ _)) (RunKeeps.refl s)
    exact RunKeeps.thenPoint (RunKeeps.refl s) (fun _ => rfl) (fun _ => rfl) (fun _ => rfl) fun _ => rfl
  · exact RunKeeps.refl s

/-- CANCEL (R45). -/
theorem takeCancel_keeps (point : Nat) (run : Option Nat) (s : State) : RunKeeps s (s.takeCancel point run) := by
  unfold takeCancel
  split
  · refine RunKeeps.ite (RunKeeps.ite ?_ (RunKeeps.refl s)) (RunKeeps.ite (endRun_keeps s _ _) (RunKeeps.refl s))
    exact (denyPending_keeps s _ _).trans (leaveSeeking_keeps _ _)
  · exact RunKeeps.refl s

end Sys2Proof.Machine.State
end

