-- ==== Sys2Proof/Laws/Zones.lean ====
section
/-! SUPPORT. The Spill Monitor's operations (07): each keeps the event frame and the bounds. -/
namespace Sys2Proof.Machine

/-- An event operation that touches a Point Controller's own fields and the Spill Monitor's zones and HOSE sources. -/
theorem EventKeeps.of_eq {s t : State} (h1 : t.pending = s.pending)
    (h2 : { t.loader with restartList := [] } = { s.loader with restartList := [] }) (h3 : t.chans = s.chans)
    (h4 : ∀ p, (t.getPoint p).offHook = (s.getPoint p).offHook) (h5 : ∀ p, (t.getPoint p).permanent = (s.getPoint p).permanent)
    (h6 : t.nextRun = s.nextRun) (h7 : t.book = s.book) (h8 : t.homes = s.homes) (h9 : t.spill.lines = s.spill.lines)
    (h10 : t.link = s.link) (h13 : t.allot = s.allot) (h11 : t.log = s.log) (h12 : t.accounts = s.accounts) : EventKeeps s t where
  pending := h1
  loader := h2
  chans := fun p => by unfold State.getChan; rw [h3]
  hooks := h4
  permanent := h5
  nextRun := h6
  peers := by rw [h13]
  book := h7
  homes := h8
  lines := h9
  presence := by rw [h10]
  presenceTimer := by rw [h10]
  seq := by rw [h10]
  attempt := by rw [h10]
  ok := fun k => by unfold State.Ok; rw [h10, h11, h12, h8]; exact k

theorem EventKeeps.thenPoint {s t : State} (h : EventKeeps s t) {p : PointId} {f : Point → Point}
    (h1 : ∀ x, (f x).offHook = x.offHook) (h2 : ∀ x, (f x).permanent = x.permanent) : EventKeeps s (t.modPoint p f) :=
  h.trans (EventKeeps.of_eq rfl rfl rfl (fun q => by rw [State.getPoint_modPoint]; split <;> simp_all)
    (fun q => by rw [State.getPoint_modPoint]; split <;> simp_all) rfl rfl rfl rfl rfl rfl rfl rfl)

theorem EventKeeps.modZone (s : State) (z : Nat) (f : ZoneRec → ZoneRec) : EventKeeps s (s.modZone z f) :=
  .of_eq rfl rfl rfl (fun _ => rfl) (fun _ => rfl) rfl rfl rfl rfl rfl rfl rfl rfl

theorem EventKeeps.setHose (s : State) (p : PointId) (h : HoseSource) : EventKeeps s (s.setHose p h) :=
  .of_eq rfl rfl rfl (fun _ => rfl) (fun _ => rfl) rfl rfl rfl rfl rfl rfl rfl rfl

theorem EventKeeps.setBeacon (s : State) : EventKeeps s s.setBeacon :=
  .of_eq rfl rfl rfl (fun _ => rfl) (fun _ => rfl) rfl rfl rfl rfl rfl rfl rfl rfl

namespace State

/-- R47: a point shut by its zones. -/
theorem shutPoint_keeps (s : State) (p : PointId) : RunKeeps s (s.shutPoint p) := by
  unfold shutPoint
  split
  · exact RunKeeps.thenPoint (RunKeeps.refl s) (fun _ => rfl) (fun _ => rfl) (fun _ => rfl) fun _ => rfl
  · exact RunKeeps.thenPoint ((denyPending_keeps s p _).trans (pumpOff_keeps _ p)) (fun _ => rfl) (fun _ => rfl) (fun _ => rfl)
      fun _ => rfl
  · exact RunKeeps.thenPoint (pumpOff_keeps s p) (fun _ => rfl) (fun _ => rfl) (fun _ => rfl) fun _ => rfl
  · exact RunKeeps.thenPoint (RunKeeps.refl s) (fun _ => rfl) (fun _ => rfl) (fun _ => rfl) fun _ => rfl
  all_goals exact endRun_keeps s p _

/-- R47, R147: a point freed by its zones. -/
theorem freePoint_keeps (s : State) (p : PointId) : RunKeeps s (s.freePoint p) := by
  unfold freePoint
  refine RunKeeps.ite (RunKeeps.ite ?_ ?_) (RunKeeps.refl s)
  · exact RunKeeps.thenPoint (RunKeeps.refl s) (fun _ => rfl) (fun _ => rfl) (fun _ => rfl) fun _ => rfl
  · exact RunKeeps.thenPoint (RunKeeps.refl s) (fun _ => rfl) (fun _ => rfl) (fun _ => rfl) fun _ => rfl

/-- R48: a point fault. -/
theorem raiseFault_keeps (s : State) (p : PointId) (f : PointFault) : EventKeeps s (s.raiseFault p f) := by
  have h : EventKeeps s (s.modPoint p fun x =>
      match f with
      | .meter => { x with faultMeter := true }
      | .hose => { x with faultHose := true }) := by
    cases f <;> exact EventKeeps.thenPoint (EventKeeps.refl s) (fun _ => rfl) (fun _ => rfl)
  unfold raiseFault
  dsimp only
  split
  · exact h.trans ((pumpOff_keeps _ p).trans (lock_keeps _ p)).event
  · refine h.trans (RunKeeps.event (RunKeeps.trans ?_ (lock_keeps _ p)))
    exact RunKeeps.thenPoint (pumpOff_keeps _ p) (fun _ => rfl) (fun _ => rfl) (fun _ => rfl) fun _ => rfl
  · refine h.trans (RunKeeps.event (RunKeeps.trans ?_ (lock_keeps _ p)))
    exact RunKeeps.thenPoint ((denyPending_keeps _ p _).trans (pumpOff_keeps _ p)) (fun _ => rfl) (fun _ => rfl) (fun _ => rfl)
      fun _ => rfl
  · exact h
  all_goals exact h.trans (endRun_keeps _ p _).event

theorem actTold_keeps (s : State) (z : Nat) (act : PointId → State → State) (h : ∀ p s, EventKeeps s (act p s)) :
    EventKeeps s (s.actTold z act) :=
  ((leaveQueues_keeps s _).event.trans (EventKeeps.inOrder _ act h _)).trans (EventKeeps.forEach _ act h _)

theorem sendSpill_keeps (s : State) (z : Nat) : EventKeeps s (s.sendSpill z) := by
  unfold sendSpill
  split
  · split
    · exact (queueFrame_keeps _ s).event.trans (EventKeeps.modZone _ z _)
    · exact EventKeeps.refl s
  · exact EventKeeps.refl s

theorem markTrip_keeps (s : State) (z : Nat) (kind : SourceKind) (index : Nat) : EventKeeps s (s.markTrip z kind index) :=
  (EventKeeps.modZone s z _).trans (EventKeeps.setBeacon _)

theorem tripWith_keeps (s : State) (z : Nat) (kind : SourceKind) (index : Nat) (act : PointId → State → State)
    (h : ∀ p s, EventKeeps s (act p s)) : EventKeeps s (s.tripWith z kind index act) := by
  unfold tripWith
  refine EventKeeps.trans ?_ (sendSpill_keeps _ z)
  exact EventKeeps.ite ((markTrip_keeps s z kind index).trans (actTold_keeps _ z act h)) (markTrip_keeps s z kind index)

/-- R141: a local trip. -/
theorem localTrip_keeps (s : State) (z : Nat) (kind : SourceKind) (index : Nat) : EventKeeps s (s.localTrip z kind index) :=
  tripWith_keeps s z kind index _ fun p s => (shutPoint_keeps s p).event

/-- R145: a zone becomes CLEAR. -/
theorem clearZone_keeps (s : State) (z : Nat) : EventKeeps s (s.clearZone z) := by
  unfold clearZone
  exact (((EventKeeps.modZone s z _).trans (EventKeeps.setBeacon _)).trans (withdraw_keeps _ _).event).trans
    (EventKeeps.inOrder _ _ (fun p s => (freePoint_keeps s p).event) _)

theorem hosePoint_keeps (p q : PointId) (s : State) : EventKeeps s (hosePoint p q s) := by
  unfold hosePoint
  refine EventKeeps.ite (EventKeeps.ite ?_ ?_) (shutPoint_keeps s q).event
  · dsimp only
    refine EventKeeps.ite ?_ ?_
    · exact ((RunKeeps.choose s).event.trans (raiseFault_keeps _ p .hose)).trans (shutPoint_keeps _ p).event
    · exact ((RunKeeps.choose s).event.trans (shutPoint_keeps _ p).event).trans (raiseFault_keeps _ p .hose)
  · exact (raiseFault_keeps s p .hose).trans (shutPoint_keeps _ p).event

/-- R140: a HOSE source goes WET. -/
theorem hoseWet_keeps (s : State) (p : PointId) : EventKeeps s (s.hoseWet p) := by
  have h : EventKeeps s (s.setHose p { wet := true, sticky := true, overRate := 0 }) := EventKeeps.setHose s p _
  unfold hoseWet
  dsimp only
  split
  · exact h
  · next z _ =>
    refine EventKeeps.ite ?_ ?_
    · exact h.trans (tripWith_keeps _ z .hose _ _ (hosePoint_keeps p))
    · exact (h.trans (raiseFault_keeps _ p .hose)).trans (tripWith_keeps _ z .hose _ _ (hosePoint_keeps p))

end State

end Sys2Proof.Machine
end

