-- ==== Sys2Proof/Laws/Stock.lean ====
section
/-! SUPPORT. The operations of the Stock Book and the Reconciler (04, 05): the bounds they keep, and what they leave of the other blocks. -/
namespace Sys2Proof.Machine.State

/-- One of two states. -/
theorem ite_ok {c : Prop} [Decidable c] {s t : State} (h : s.Ok) (g : t.Ok) : (if c then s else t).Ok := by
  split <;> assumption

theorem modEntry_ok (s : State) (tank : Nat) (f : BookEntry → BookEntry) (h : s.Ok) : (s.modEntry tank f).Ok := h

theorem modFlags_ok (s : State) (tank : Nat) (f : StockFlags → StockFlags) (h : s.Ok) : (s.modFlags tank f).Ok := h

theorem modAllot_ok (s : State) (tank : Nat) (f : TankAllot → TankAllot) (h : s.Ok) : (s.modAllot tank f).Ok := h

/-- A change of a home tank that keeps its ring's bound. -/
theorem modHome_ok (s : State) (tank : Nat) (f : HomeTank → HomeTank) (hf : ∀ x : HomeTank, x.Ok → (f x).Ok) (h : s.Ok) :
    (s.modHome tank f).Ok := by
  refine ⟨h.1, h.2.1, h.2.2.1, ?_⟩
  intro x hx
  obtain ⟨y, hy, rfl⟩ := List.mem_map.mp hx
  have := h.2.2.2 y hy
  split
  · exact hf y this
  · exact this

theorem modRecon_ok (s : State) (tank : Nat) (f : Recon → Recon) (hf : ∀ r, (f r).ring = r.ring) (h : s.Ok) :
    (s.modRecon tank f).Ok :=
  modHome_ok s tank _ (fun x hx => by show (f x.recon).ring.length ≤ _; rw [hf]; exact hx) h

theorem modGauge_ok (s : State) (tank : Nat) (f : Gauge → Gauge) (h : s.Ok) : (s.modGauge tank f).Ok :=
  modHome_ok s tank _ (fun _ hx => hx) h

theorem queueStock_ok (s : State) (tank value : Nat) (h : s.Ok) : (s.queueStock tank value).Ok := by
  unfold queueStock
  split
  · exact (queueFrame_keeps _ s).ok h
  · exact h

theorem repeatStock_ok (s : State) (tank : Nat) (h : s.Ok) : (s.repeatStock tank).Ok := by
  unfold repeatStock
  split
  · exact queueStock_ok _ _ _ (modEntry_ok _ _ _ h)
  · exact h

theorem countDraw_ok (s : State) (tank n : Nat) (h : s.Ok) : (s.countDraw tank n).Ok :=
  modHome_ok s tank _ (fun x hx => by split <;> exact hx) h

theorem ownDrawOne_ok (s : State) (tank : Nat) (h : s.Ok) : (s.ownDrawOne tank).Ok :=
  modAllot_ok _ _ _ (countDraw_ok _ _ _ (modEntry_ok _ _ _ h))

theorem applyDraw_ok (s : State) (tank station : Nat) (cumulative : Word32) (h : s.Ok) :
    (s.applyDraw tank station cumulative).Ok := by
  unfold applyDraw
  split
  · exact h
  · exact countDraw_ok _ _ _ (modEntry_ok _ _ _ h)

/-- R106: the ring takes a result, letting the oldest go when it is full. -/
theorem recordResult_ok (s : State) (tank : Nat) (r : WinResult) (h : s.Ok) : (s.recordResult tank r).Ok := by
  refine modEntry_ok _ _ _ (modHome_ok s tank _ ?_ h)
  intro x hx
  show ((if x.recon.ring.length < Config.ringResults then x.recon.ring else x.recon.ring.drop 1) ++ [r]).length
    ≤ Config.ringResults
  have hx' : x.recon.ring.length ≤ Config.ringResults := hx
  have hpos : 0 < Config.ringResults := by decide
  split
  · rw [List.length_append]; simp only [List.length_cons, List.length_nil]; omega
  · rw [List.length_append, List.length_drop]; simp only [List.length_cons, List.length_nil]; omega

theorem changeLoss_ok (s : State) (tank : Nat) (wet : Bool) (h : s.Ok) : (s.changeLoss tank wet).Ok := by
  have h1 : (((s.modHome tank fun x => { x with lossWet := wet, lossSticky := x.lossSticky || wet }).modFlags tank fun f =>
      { f with loss := wet }).repeatStock tank).Ok :=
    repeatStock_ok _ _ (modFlags_ok _ _ _ (modHome_ok s tank _ (fun _ hx => hx) h))
  unfold changeLoss
  dsimp only
  split
  · exact (localTrip_keeps _ _ _ _).ok h1
  · exact h1

theorem hysteresis_ok (s : State) (tank : Nat) (v : Verdict) (h : s.Ok) : (s.hysteresis tank v).Ok := by
  have hm : ∀ f : Recon → Recon, (∀ r, (f r).ring = r.ring) → (s.modRecon tank f).Ok := fun f hf => modRecon_ok s tank f hf h
  unfold hysteresis
  split
  · split
    · exact h
    all_goals
      dsimp only
      split
      · exact changeLoss_ok _ _ _ (hm _ fun _ => rfl)
      · exact hm _ fun _ => rfl
  · exact h

theorem discardWindow_ok (s : State) (tank : Nat) (h : s.Ok) : (s.discardWindow tank).Ok := by
  unfold discardWindow
  split
  · exact h
  · split
    · exact h
    · exact modRecon_ok _ _ _ (fun _ => rfl) (recordResult_ok _ _ _ h)

theorem openWindow_ok (s : State) (tank stock : Nat) (h : s.Ok) : (s.openWindow tank stock).Ok := by
  unfold openWindow
  split
  · exact h
  · exact modRecon_ok _ _ _ (fun _ => rfl) h

theorem reconSample_ok (s : State) (tank stock : Nat) (h : s.Ok) : (s.reconSample tank stock).Ok := by
  unfold reconSample
  split
  · split
    · exact h
    · split
      · exact h
      · exact openWindow_ok _ _ _ h
    · dsimp only
      split
      · exact hysteresis_ok _ _ _ (modRecon_ok _ _ _ (fun _ => rfl) (recordResult_ok _ _ _ h))
      · exact openWindow_ok _ _ _ (hysteresis_ok _ _ _ (modRecon_ok _ _ _ (fun _ => rfl) (recordResult_ok _ _ _ h)))
  · exact h

theorem heldSample_ok (s : State) (tank : Nat) (h : s.Ok) : (s.heldSample tank).Ok := by
  unfold heldSample
  split
  · next x e _ _ =>
    have h1 := modGauge_ok s tank (fun g => { g with held := satAdd 255 x.gauge.held 1 }) h
    have h2 : (if (decide (satAdd 255 x.gauge.held 1 = 3) && !e.flags.gaugeFault) = true then
        (s.modGauge tank fun g => { g with held := satAdd 255 x.gauge.held 1 }).modFlags tank fun f => { f with gaugeFault := true }
        else s.modGauge tank fun g => { g with held := satAdd 255 x.gauge.held 1 }).Ok := by
      split
      · exact modFlags_ok _ _ _ h1
      · exact h1
    dsimp only
    split
    · refine repeatStock_ok _ _ ?_
      split
      · exact discardWindow_ok _ _ h2
      · exact h2
    · split
      · exact discardWindow_ok _ _ h2
      · exact h2
  · exact h

theorem publish_ok (s : State) (tank stock : Nat) (jump overStrap : Bool) (h : s.Ok) : (s.publish tank stock jump overStrap).Ok :=
  queueStock_ok _ _ _ (modEntry_ok _ _ _ h)

theorem acceptSample_ok (s : State) (tank level : Nat) (temp : Int) (jump : Bool) (strap : List (Nat × Nat)) (h : s.Ok) :
    (s.acceptSample tank level temp jump strap).Ok := by
  unfold acceptSample
  split
  · exact (reserveSweep_keeps _ tank).ok (reconSample_ok _ _ _ (publish_ok _ _ _ _ _ (modGauge_ok _ _ _ h)))
  · exact h

theorem validSample_ok (s : State) (tank level : Nat) (temp : Int) (c : HomeCfg) (h : s.Ok) :
    (s.validSample tank level temp c).Ok := by
  have h1 := modGauge_ok s tank (fun g => { g with held := 0 }) h
  unfold validSample
  dsimp only
  split
  · exact ite_ok (acceptSample_ok _ _ _ _ _ _ h1) (ite_ok (acceptSample_ok _ _ _ _ _ _ h1) (modGauge_ok _ _ _ h1))
  · exact h1

theorem stockTaken_ok (s : State) (tank : Nat) (flags : StockFlags) (f : BookEntry → BookEntry) (h : s.Ok) :
    (s.stockTaken tank flags f).Ok := by
  unfold stockTaken
  split
  · exact h
  · refine (reserveSweep_keeps _ tank).ok ?_
    split
    · exact (quarantineTank_keeps _ tank).ok (modEntry_ok _ _ _ h)
    · exact modEntry_ok _ _ _ h

end Sys2Proof.Machine.State
end

