-- ==== Sys2Proof/Laws/Requeue.lean ====
section
/-! SUPPORT. What queueing, handing and withdrawing frames touch: the queue's slots, the collection, the restart list, the marks and the free choices, and nothing else. -/
namespace Sys2Proof.Machine

/-- The state with other slots, collection, restart list, marks and free choices. -/
def State.requeued (s : State) (q : List Slot) (c : Option Collection) (l : List Listed) (m : EventMarks) (n : Nat) : State :=
  { s with
    link := { s.link with queue := q }
    log := { s.log with collection := c }
    loader := { s.loader with restartList := l }
    marks := m
    free := n }

/-- An operation that touches the transmit queue and what goes with it alone. -/
def Requeues (s t : State) : Prop := ∃ q c l m n, t = s.requeued q c l m n

theorem Requeues.refl (s : State) : Requeues s s := ⟨s.link.queue, s.log.collection, s.loader.restartList, s.marks, s.free, rfl⟩

theorem Requeues.trans {s t u : State} (h : Requeues s t) (g : Requeues t u) : Requeues s u := by
  obtain ⟨q, c, l, m, n, rfl⟩ := h
  obtain ⟨q', c', l', m', n', rfl⟩ := g
  exact ⟨q', c', l', m', n', rfl⟩

theorem Requeues.ite {s t u : State} {c : Prop} [Decidable c] (h : Requeues s t) (g : Requeues s u) :
    Requeues s (if c then t else u) := by split <;> assumption

theorem Requeues.setQueue (s : State) (q : List Slot) : Requeues s (s.setQueue q) := ⟨q, _, _, _, _, rfl⟩
theorem Requeues.setCollection (s : State) (c : Option Collection) : Requeues s (s.setCollection c) := ⟨_, c, _, _, _, rfl⟩
theorem Requeues.setMarks (s : State) (m : EventMarks) : Requeues s (s.setMarks m) := ⟨_, _, _, m, _, rfl⟩
theorem Requeues.setFree (s : State) (n : Nat) : Requeues s (s.setFree n) := ⟨_, _, _, _, n, rfl⟩
theorem Requeues.setRestartList (s : State) (l : List Listed) :
    Requeues s (s.setLoader { s.loader with restartList := l }) := ⟨_, _, l, _, _, rfl⟩

/-! ### What it leaves -/

theorem Requeues.pending {s t : State} (h : Requeues s t) : t.pending = s.pending := by obtain ⟨_, _, _, _, _, rfl⟩ := h; rfl
theorem Requeues.chans {s t : State} (h : Requeues s t) : t.chans = s.chans := by obtain ⟨_, _, _, _, _, rfl⟩ := h; rfl
theorem Requeues.points {s t : State} (h : Requeues s t) : t.points = s.points := by obtain ⟨_, _, _, _, _, rfl⟩ := h; rfl
theorem Requeues.nextRun {s t : State} (h : Requeues s t) : t.nextRun = s.nextRun := by obtain ⟨_, _, _, _, _, rfl⟩ := h; rfl
theorem Requeues.allot {s t : State} (h : Requeues s t) : t.allot = s.allot := by obtain ⟨_, _, _, _, _, rfl⟩ := h; rfl
theorem Requeues.book {s t : State} (h : Requeues s t) : t.book = s.book := by obtain ⟨_, _, _, _, _, rfl⟩ := h; rfl
theorem Requeues.homes {s t : State} (h : Requeues s t) : t.homes = s.homes := by obtain ⟨_, _, _, _, _, rfl⟩ := h; rfl
theorem Requeues.accounts {s t : State} (h : Requeues s t) : t.accounts = s.accounts := by
  obtain ⟨_, _, _, _, _, rfl⟩ := h; rfl
theorem Requeues.spill {s t : State} (h : Requeues s t) : t.spill = s.spill := by obtain ⟨_, _, _, _, _, rfl⟩ := h; rfl
theorem Requeues.records {s t : State} (h : Requeues s t) : t.log.records = s.log.records := by
  obtain ⟨_, _, _, _, _, rfl⟩ := h; rfl
theorem Requeues.nextLog {s t : State} (h : Requeues s t) : t.log.next = s.log.next := by
  obtain ⟨_, _, _, _, _, rfl⟩ := h; rfl
theorem Requeues.uncollected {s t : State} (h : Requeues s t) : t.log.uncollected = s.log.uncollected := by
  obtain ⟨_, _, _, _, _, rfl⟩ := h; rfl
theorem Requeues.pressing {s t : State} (h : Requeues s t) : t.log.pressing = s.log.pressing := by
  obtain ⟨_, _, _, _, _, rfl⟩ := h; rfl
theorem Requeues.presence {s t : State} (h : Requeues s t) : t.link.presence = s.link.presence := by
  obtain ⟨_, _, _, _, _, rfl⟩ := h; rfl
theorem Requeues.presenceTimer {s t : State} (h : Requeues s t) : t.link.presenceTimer = s.link.presenceTimer := by
  obtain ⟨_, _, _, _, _, rfl⟩ := h; rfl
theorem Requeues.attempt {s t : State} (h : Requeues s t) : t.link.attempt = s.link.attempt := by
  obtain ⟨_, _, _, _, _, rfl⟩ := h; rfl
theorem Requeues.seq {s t : State} (h : Requeues s t) : t.link.seq = s.link.seq := by
  obtain ⟨_, _, _, _, _, rfl⟩ := h; rfl
theorem Requeues.getPoint {s t : State} (h : Requeues s t) (p : PointId) : t.getPoint p = s.getPoint p := by
  unfold State.getPoint; rw [h.points]
theorem Requeues.getChan {s t : State} (h : Requeues s t) (p : PointId) : t.getChan p = s.getChan p := by
  unfold State.getChan; rw [h.chans]
theorem Requeues.tankAllot {s t : State} (h : Requeues s t) (n : Nat) : t.tankAllot n = s.tankAllot n := by
  unfold State.tankAllot; rw [h.allot]
theorem Requeues.entry {s t : State} (h : Requeues s t) (n : Nat) : t.entry n = s.entry n := by
  unfold State.entry; rw [h.book]
theorem Requeues.homeOf {s t : State} (h : Requeues s t) (n : Nat) : t.homeOf n = s.homeOf n := by
  unfold State.homeOf; rw [h.homes]
theorem Requeues.zoneRec {s t : State} (h : Requeues s t) (z : Nat) : t.zoneRec z = s.zoneRec z := by
  unfold State.zoneRec; rw [h.spill]
theorem Requeues.account {s t : State} (h : Requeues s t) (tag : Tag) : t.account tag = s.account tag := by
  unfold State.account; rw [h.accounts]
theorem Requeues.cfg {s t : State} (h : Requeues s t) : t.cfg = s.cfg := by obtain ⟨_, _, _, _, _, rfl⟩ := h; rfl
theorem Requeues.own {s t : State} (h : Requeues s t) : t.own = s.own := by obtain ⟨_, _, _, _, _, rfl⟩ := h; rfl
theorem Requeues.phase {s t : State} (h : Requeues s t) : t.loader.phase = s.loader.phase := by
  obtain ⟨_, _, _, _, _, rfl⟩ := h; rfl

namespace State

/-! ### The operations -/

theorem choose_requeues (s : State) : Requeues s s.choose.2 := Requeues.setFree s _

theorem batchLeft_requeues (s : State) (b : Body) : Requeues s (s.batchLeft b) := by
  unfold batchLeft
  split
  · exact Requeues.setCollection s _
  · exact Requeues.refl s

theorem noteLeft_requeues (s : State) : Requeues s s.noteLeft := by
  unfold noteLeft
  exact Requeues.ite (Requeues.refl s) (Requeues.setMarks s _)

theorem noteDropped_requeues (q : List Slot) (f : Frame) (s : State) : Requeues s (noteDropped q f s) :=
  Requeues.ite (noteLeft_requeues s) (Requeues.refl s)

theorem batchStep_requeues (s : State) : Requeues s s.batchStep.1 := by
  unfold batchStep
  split
  · exact Requeues.refl s
  · split
    · exact Requeues.refl s
    · split
      · exact Requeues.setCollection s _
      · next f c' _ =>
        have h1 : Requeues s ((s.setCollection (some c')).setQueue (place s.link.queue f true).1) :=
          (Requeues.setCollection s _).trans (Requeues.setQueue _ _)
        dsimp only
        split
        · exact h1
        · split
          · exact (h1.trans (noteDropped_requeues _ _ _)).trans (batchLeft_requeues _ _)
          · exact h1.trans (noteDropped_requeues _ _ _)

theorem batchLoop_requeues (n : Nat) (s : State) : Requeues s (s.batchLoop n) := by
  induction n generalizing s with
  | zero => exact Requeues.refl s
  | succ n ih =>
    unfold batchLoop
    split
    · exact (batchStep_requeues s).trans (ih _)
    · exact batchStep_requeues s

theorem advanceCollection_requeues (s : State) : Requeues s s.advanceCollection := by
  unfold advanceCollection
  split
  · exact batchLoop_requeues _ s
  · exact Requeues.refl s

theorem tellLeft_requeues (d : Slot) (s : State) : Requeues s (tellLeft d s) := by
  unfold tellLeft
  exact Requeues.ite ((batchLeft_requeues s _).trans (advanceCollection_requeues _)) (Requeues.refl s)

theorem placeTold_requeues (f : Frame) (s : State) : Requeues s (placeTold f s) := by
  unfold placeTold
  have h : Requeues s (s.setQueue (place s.link.queue f false).1) := Requeues.setQueue s _
  dsimp only
  split
  · exact h
  · exact (h.trans (noteDropped_requeues _ _ _)).trans (tellLeft_requeues _ _)

theorem handOne_requeues (s : State) : Requeues s s.handOne := by
  unfold handOne
  split
  · exact Requeues.setRestartList s _
  · exact (Requeues.setRestartList s _).trans (placeTold_requeues _ _)

theorem handNow_requeues (s : State) : Requeues s s.handNow := (Requeues.setMarks s _).trans (handOne_requeues _)

theorem handMaybe_requeues (s : State) : Requeues s s.handMaybe := by
  unfold handMaybe
  split
  · exact (choose_requeues s).trans (Requeues.ite (handNow_requeues _) (Requeues.refl _))
  · exact Requeues.refl s

theorem supersede_requeues (b : Body) (s : State) : Requeues s (s.supersede b) := by
  unfold supersede
  split
  · exact Requeues.setRestartList s _
  · exact Requeues.refl s

/-- R171: a frame queued touches nothing else. -/
theorem queueFrame_requeues (f : Frame) (s : State) : Requeues s (s.queueFrame f) := by
  unfold queueFrame
  split
  · exact Requeues.setRestartList s _
  · split
    · exact Requeues.refl s
    · have h : Requeues s ((s.supersede f.body).setQueue (place (s.supersede f.body).link.queue f false).1) :=
        (supersede_requeues _ s).trans (Requeues.setQueue _ _)
      dsimp only
      split
      · exact h
      · exact ((h.trans (noteDropped_requeues _ _ _)).trans (handMaybe_requeues _)).trans (tellLeft_requeues _ _)

theorem queueFrames_requeues (s : State) (l : List Frame) : Requeues s (s.queueFrames l) := by
  unfold queueFrames inOrder
  induction l generalizing s with
  | nil => exact Requeues.refl s
  | cons f l ih => exact (queueFrame_requeues f s).trans (ih _)

theorem slotLeaves_requeues (d : Slot) (s : State) : Requeues s (slotLeaves d s) := by
  unfold slotLeaves
  dsimp only
  exact Requeues.ite (((noteLeft_requeues s).trans (handMaybe_requeues _)).trans (tellLeft_requeues _ _)) (noteLeft_requeues s)

theorem withdraw_requeues (pick : Slot → Bool) (s : State) : Requeues s (s.withdraw pick) := by
  unfold withdraw
  split
  · exact Requeues.refl s
  · exact Requeues.ite (Requeues.setQueue s _) ((Requeues.setQueue s _).trans (noteLeft_requeues _))

theorem finish_requeues (s : State) : Requeues s s.finish := by
  unfold finish
  exact (Requeues.ite (handNow_requeues s) (Requeues.refl s)).trans (Requeues.setMarks _ _)

/-- At a transmitting station with no restart list and no collection in hand, a queued frame is placed by R171, and
nothing else changes. -/
theorem queueFrame_plain (f : Frame) (s : State) (ho : s.own ≠ 0) (hm : s.marks = EventMarks.clear)
    (hl : s.loader.restartList = []) (hc : s.log.collection = none) :
    s.queueFrame f = s.setQueue (place s.link.queue f false).1 := by
  have hf : s.marks.forming = false := by rw [hm]; rfl
  have hs : s.supersede f.body = s := by unfold supersede; rw [hl]; rfl
  unfold queueFrame
  rw [if_neg (by rw [hf]; exact Bool.false_ne_true), if_neg ho]
  dsimp only
  rw [hs]
  split
  · rfl
  · next d _ =>
    have hn : (s.setQueue (place s.link.queue f false).1).noteLeft = s.setQueue (place s.link.queue f false).1 := by
      unfold noteLeft
      rw [if_pos]
      show (s.loader.restartList.isEmpty || s.marks.handDone) = true
      rw [hl]
      rfl
    have hd : noteDropped s.link.queue f (s.setQueue (place s.link.queue f false).1)
        = s.setQueue (place s.link.queue f false).1 := by
      unfold noteDropped
      rw [hn]
      split <;> rfl
    rw [hd]
    have hh : (s.setQueue (place s.link.queue f false).1).handMaybe = s.setQueue (place s.link.queue f false).1 := by
      unfold handMaybe
      rw [if_neg]
      show ¬ s.marks.handDue = true
      rw [hm]
      exact Bool.false_ne_true
    rw [hh]
    unfold tellLeft
    split
    · have hb : (s.setQueue (place s.link.queue f false).1).batchLeft d.frame.body = s.setQueue (place s.link.queue f false).1 := by
        unfold batchLeft
        split
        · next heq => 
          have : s.log.collection = some _ := heq
          rw [hc] at this
          cases this
        · rfl
      rw [hb]
      unfold advanceCollection
      split
      · next heq =>
        have : s.log.collection = some _ := heq
        rw [hc] at this
        cases this
      · rfl
    · rfl

end State

end Sys2Proof.Machine
end

