-- ==== Sys2Proof/Laws/Aside.lean ====
section
/-! SUPPORT. What the operations of one point's run leave of another point, and what a recomputation leaves of a point outside the tank's lists. -/
namespace Sys2Proof.Machine

/-- Point `p` stands as it stood, and has joined no list. -/
structure Aside (p : PointId) (s t : State) : Prop where
  point : t.getPoint p = s.getPoint p
  chan : t.getChan p = s.getChan p
  hose : t.getHose p = s.getHose p
  admitted : ∀ n, p ∈ t.admitted n → p ∈ s.admitted n
  waiting : ∀ n, p ∈ t.waiting n → p ∈ s.waiting n

namespace Aside

variable {p q : PointId} {s t u : State}

theorem refl (p : PointId) (s : State) : Aside p s s := ⟨rfl, rfl, rfl, fun _ => id, fun _ => id⟩

theorem trans (h : Aside p s t) (g : Aside p t u) : Aside p s u :=
  ⟨g.point.trans h.point, g.chan.trans h.chan, g.hose.trans h.hose, fun n k => h.admitted n (g.admitted n k),
    fun n k => h.waiting n (g.waiting n k)⟩

theorem ite {c : Prop} [Decidable c] (h : Aside p s t) (g : Aside p s u) : Aside p s (if c then t else u) := by
  split <;> assumption

/-- An operation that touches neither points, channels, the Spill Monitor nor the Flow Allotter. -/
theorem of_eq (h1 : t.points = s.points) (h2 : t.chans = s.chans) (h3 : t.spill = s.spill) (h4 : t.allot = s.allot) :
    Aside p s t :=
  ⟨by unfold State.getPoint; rw [h1], by unfold State.getChan; rw [h2], by unfold State.getHose; rw [h3],
    fun n => by unfold State.admitted State.tankAllot; rw [h4]; exact id,
    fun n => by unfold State.waiting State.tankAllot; rw [h4]; exact id⟩

theorem requeues (h : Requeues s t) : Aside p s t := of_eq h.points h.chans h.spill h.allot

/-- Another point's own fields. -/
theorem thenPoint (h : Aside p s t) (hq : p ≠ q) {f : Point → Point} : Aside p s (t.modPoint q f) :=
  h.trans ⟨State.getPoint_modPoint_other t f hq, rfl, rfl, fun _ => id, fun _ => id⟩

theorem thenChan (h : Aside p s t) (hq : p ≠ q) {f : Channel → Channel} : Aside p s (t.modChan q f) :=
  h.trans ⟨rfl, State.getChan_modChan_other t f hq, rfl, fun _ => id, fun _ => id⟩

theorem thenHose (h : Aside p s t) (hq : p ≠ q) {x : HoseSource} : Aside p s (t.setHose q x) :=
  h.trans ⟨rfl, rfl, by rw [State.getHose_setHose, if_neg hq], fun _ => id, fun _ => id⟩

/-- Items handled one after another, each of which leaves `p` aside. -/
theorem inOrder {α : Type} (l : List α) (f : α → State → State) (h : ∀ a ∈ l, ∀ s, Aside p s (f a s)) (s : State) :
    Aside p s (s.inOrder l f) := by
  induction l generalizing s with
  | nil => exact refl p s
  | cons a l ih => exact (h a List.mem_cons_self s).trans (ih (fun b hb => h b (List.mem_cons_of_mem _ hb)) _)

/-- Items handled in a free order, each of which leaves `p` aside. -/
theorem forEach {α : Type} (l : List α) (f : α → State → State) (h : ∀ a ∈ l, ∀ s, Aside p s (f a s)) (s : State) :
    Aside p s (s.forEach l f) := by
  unfold State.forEach
  refine trans (t := if l.length < 2 then s else s.setFree (s.free + l.length)) (ite (refl p s) (of_eq rfl rfl rfl rfl)) ?_
  exact inOrder _ f (fun a ha => h a ((freeOrder_perm _ _ l).mem_iff.mp ha)) _

/-- A change of a tank's lists that `p` does not join. -/
theorem modAllot (s : State) (n : Nat) (f : TankAllot → TankAllot) (ht : ∀ a, (f a).tank = a.tank)
    (ha : ∀ a, p ∈ (f a).admitted → p ∈ a.admitted) (hw : ∀ a, p ∈ (f a).queue → p ∈ a.queue) :
    Aside p s (s.modAllot n f) := by
  have hfind : ∀ m, (s.modAllot n f).tankAllot m = s.tankAllot m ∨
      (s.modAllot n f).tankAllot m = (s.tankAllot m).map f := by
    intro m
    by_cases hm : m = n
    · subst hm
      exact Or.inr (State.tankAllot_modAllot s m f ht)
    · exact Or.inl (State.tankAllot_modAllot_other s f ht hm)
  refine ⟨rfl, rfl, rfl, ?_, ?_⟩
  · intro m
    unfold State.admitted
    rcases hfind m with h | h <;> rw [h]
    · exact id
    · cases s.tankAllot m with
      | none => exact id
      | some a => exact ha a
  · intro m
    unfold State.waiting
    rcases hfind m with h | h <;> rw [h]
    · exact id
    · cases s.tankAllot m with
      | none => exact id
      | some a => exact hw a

end Aside

namespace State

variable {p q : PointId}

theorem closeValve_aside (s : State) (hq : p ≠ q) : Aside p s (s.closeValve q) := by
  unfold closeValve
  refine Aside.ite ?_ (Aside.refl p s)
  exact Aside.thenHose (Aside.thenChan (Aside.thenPoint (Aside.refl p s) hq) hq) hq

theorem pumpOff_aside (s : State) (hq : p ≠ q) : Aside p s (s.pumpOff q) := by
  unfold pumpOff
  exact Aside.ite (Aside.thenPoint (Aside.refl p s) hq) (Aside.refl p s)

theorem endFirst_aside (s : State) (hq : p ≠ q) : Aside p s (s.endFirst q) := by
  unfold endFirst
  have h : Aside p s ((s.closeValve q).modPoint q fun x =>
      { x with prime := none, noLift := none, queue := none, hold := none, stall := none, progress := none, target := 0 }) :=
    Aside.thenPoint (closeValve_aside s hq) hq
  dsimp only
  split
  · refine h.trans (Aside.modAllot _ _ _ ?_ ?_ ?_)
    · intro _; rfl
    · intro _ k; exact (List.mem_filter.mp k).1
    · intro _ k; exact (List.mem_filter.mp k).1
  · exact h

theorem detach_aside (s : State) (tag : Tag) : Aside p s (s.detach tag) := Aside.of_eq rfl rfl rfl rfl

theorem closeAccount_aside (s : State) (r : RunRec) (std number : Nat) : Aside p s (s.closeAccount r std number) := by
  unfold closeAccount
  split
  · exact Aside.refl p s
  · refine Aside.trans ?_ (Aside.requeues (queueFrame_requeues _ _))
    refine Aside.of_eq ?_ ?_ ?_ ?_
    all_goals (unfold touch; split <;> rfl)

theorem endLinger_aside (s : State) (hq : p ≠ q) : Aside p s (s.endLinger q) := by
  unfold endLinger
  exact Aside.ite (Aside.thenPoint (Aside.refl p s) hq) (Aside.thenPoint (pumpOff_aside s hq) hq)

theorem lock_aside (s : State) (hq : p ≠ q) : Aside p s (s.lock q) := Aside.thenPoint (Aside.refl p s) hq

theorem endState_aside (s : State) (hq : p ≠ q) (reason : EndReason) : Aside p s (s.endState q reason) := by
  have hp := pumpOff_aside s hq
  cases reason with
  | quarantine => exact Aside.thenPoint (f := fun x => { x with st := .idle }) hp hq
  | spill => exact Aside.thenPoint (f := fun x => { x with st := .locked, lockCause := .zone }) hp hq
  | meter => exact hp.trans (lock_aside _ hq)
  | hose => exact hp.trans (lock_aside _ hq)
  | restart =>
    unfold endState
    dsimp only
    split
    · exact Aside.thenPoint hp hq
    · exact hp.trans (lock_aside _ hq)
  | preset => exact endLinger_aside s hq
  | hangup => exact endLinger_aside s hq
  | noLift => exact endLinger_aside s hq
  | noCapacity => exact endLinger_aside s hq
  | holdExpired => exact endLinger_aside s hq
  | cancel => exact endLinger_aside s hq
  | stall => exact endLinger_aside s hq
  | reserve => exact endLinger_aside s hq

theorem noteEnded_aside (s : State) (r : PointId) (tank : Nat) (reason : EndReason) :
    Aside p s (s.noteEnded r tank reason) := Aside.ite (Aside.of_eq rfl rfl rfl rfl) (Aside.refl p s)

theorem endSecond_aside (s : State) (hq : p ≠ q) (reason : EndReason) : Aside p s (s.endSecond q reason) := by
  unfold endSecond
  split
  · exact Aside.refl p s
  · next r _ =>
    have h1 : Aside p s (s.writeRecord (s.deliveryRecord q r reason)) := Aside.of_eq rfl rfl rfl rfl
    have h2 := h1.trans (closeAccount_aside _ r (s.deliveryRecord q r reason).standard (s.deliveryRecord q r reason).number)
    refine Aside.trans ?_ (endState_aside _ hq reason)
    refine Aside.trans ?_ (detach_aside _ _)
    exact Aside.thenPoint ((h2.trans (Aside.requeues (queueFrame_requeues _ _))).trans (noteEnded_aside _ q _ reason)) hq

theorem openValve_aside (s : State) (hq : p ≠ q) : Aside p s (s.openValve q) := by
  unfold openValve
  split
  · exact Aside.thenChan (Aside.thenPoint (Aside.refl p s) hq) hq
  · exact Aside.refl p s

theorem admit_aside (s : State) (tank : Nat) (hq : p ≠ q) : Aside p s (s.admitPoint tank q) := by
  unfold admitPoint
  refine Aside.trans ?_ (openValve_aside _ hq)
  refine Aside.modAllot _ _ _ ?_ ?_ ?_
  · intro _; rfl
  · intro a k
    rcases List.mem_append.mp k with k | k
    · exact (List.mem_filter.mp k).1
    · exact absurd (List.mem_singleton.mp k) hq
  · intro a k; exact (List.mem_filter.mp k).1

theorem retryHeads_aside (tank n : Nat) (s : State) (hw : p ∉ s.waiting tank) : Aside p s (retryHeads tank n s) := by
  induction n generalizing s with
  | zero => exact Aside.refl p s
  | succ n ih =>
    unfold retryHeads
    split
    · exact Aside.refl p s
    · next q l hl =>
      have hq : p ≠ q := fun h => hw (by rw [hl, h]; exact List.mem_cons_self)
      have ha := admit_aside s tank hq
      exact Aside.ite (ha.trans (ih _ fun k => hw (ha.waiting tank k))) (Aside.refl p s)

theorem endOpening_aside (s : State) (hq : p ≠ q) : Aside p s (s.endOpening q) :=
  (endFirst_aside s hq).trans (endSecond_aside _ hq .reserve)

/-- A point that did not wait is not among those that end at their opening. -/
theorem ne_of_mem_openedShort {s t : State} {tank : Nat} (hw : p ∉ s.waiting tank) (h : q ∈ openedShort s t tank) : p ≠ q :=
  fun k => hw (k ▸ (List.mem_filter.mp h).1)

theorem setTargets_aside (l : List (PointId × Nat)) (s : State) (h : ∀ e ∈ l, p ≠ e.1) :
    Aside p s (l.foldl (fun s e => s.setTarget e.1 e.2) s) := by
  induction l generalizing s with
  | nil => exact Aside.refl p s
  | cons a l ih =>
    exact (Aside.thenPoint (f := fun x => { x with target := a.2, valve := x.valve.map fun c => min c a.2 })
      (Aside.refl p s) (h a List.mem_cons_self)).trans (ih _ fun e he => h e (List.mem_cons_of_mem _ he))

theorem queueDraw_aside (s : State) (tank : Nat) : Aside p s (s.queueDraw tank) := by
  unfold queueDraw
  split
  · refine Aside.trans ?_ (Aside.requeues (queueFrame_requeues _ _))
    exact Aside.modAllot _ _ _ (fun _ => rfl) (fun _ => id) fun _ => id
  · exact Aside.refl p s

/-- A target is set for admitted points alone. -/
theorem mem_targets {s : State} {tank : Nat} {e : PointId × Nat} (h : e ∈ s.targets tank) : e.1 ∈ s.admitted tank := by
  unfold targets at h
  obtain ⟨x, hx, rfl⟩ := List.mem_map.mp h
  exact (List.of_mem_zip hx).1

theorem allotShares_aside (s : State) (tank : Nat) (ha : p ∉ s.admitted tank) : Aside p s (s.allotShares tank) := by
  have h1 : Aside p s ((s.targets tank).foldl (fun s e => s.setTarget e.1 e.2) s) :=
    setTargets_aside _ s fun e he hp => ha (by rw [hp]; exact mem_targets he)
  have h : Aside p s (((s.targets tank).foldl (fun s e => s.setTarget e.1 e.2) s).modAllot tank fun t =>
      { t with own := ((s.targets tank).map (·.2)).sum }) :=
    h1.trans (Aside.modAllot _ _ _ (fun _ => rfl) (fun _ => id) fun _ => id)
  unfold allotShares
  dsimp only
  split
  · exact Aside.ite (h.trans (queueDraw_aside _ tank)) h
  · exact h

theorem recomputeLoop_aside (tank n : Nat) (s : State) (ha : p ∉ s.admitted tank) (hw : p ∉ s.waiting tank) :
    Aside p s (s.recomputeLoop tank n) := by
  induction n generalizing s with
  | zero => exact Aside.refl p s
  | succ n ih =>
    have h1 := (retryHeads_aside tank (s.waiting tank).length s hw).trans (Aside.forEach
      (openedShort s (retryHeads tank (s.waiting tank).length s) tank) (fun p s => s.endOpening p)
      (fun q hm s => endOpening_aside s (ne_of_mem_openedShort hw hm)) _)
    have h := h1.trans (allotShares_aside _ tank fun k => ha (h1.admitted tank k))
    unfold recomputeLoop
    exact Aside.ite h (h.trans (ih _ (fun k => ha (h.admitted tank k)) fun k => hw (h.waiting tank k)))

/-- R67: a recomputation leaves a point outside the tank's lists as it stands. -/
theorem recompute_aside (s : State) (tank : Nat) (ha : p ∉ s.admitted tank) (hw : p ∉ s.waiting tank) :
    Aside p s (s.recompute tank) := recomputeLoop_aside tank _ s ha hw

end State

end Sys2Proof.Machine
end

