-- ==== Sys2Proof/Laws/PerInstr.lean ====
section
/-! SUPPORT. Families of facts stated for every command: the ends of a received frame are bytes. -/
namespace Sys2Proof.Laws.Ends

/-- A well-formed command that is a received frame carries a source and a target of one byte each (R184). -/
def Statement (i : Instr) : Prop := i.wf = true → ∀ e, i.ends = some e → e.1 ≤ 255 ∧ e.2 ≤ 255

theorem of_endsOk {src tgt : Nat} (h : endsOk src tgt = true) : src ≤ 255 ∧ tgt ≤ 255 := by
  unfold endsOk byteOk at h
  simpa using h

theorem resetLineAsserted : Statement .resetLineAsserted := by
  intro _ e he
  cases he

theorem powerOn (straps : Nat) : Statement (.powerOn straps) := by
  intro _ e he
  cases he

theorem imageCheckDone (mem : Option (List Byte)) (fill : List Bool) : Statement (.imageCheckDone mem fill) := by
  intro _ e he
  cases he

theorem listenTimerExpiry : Statement .listenTimerExpiry := by
  intro _ e he
  cases he

theorem meterPulse (p : PointId) (input : MeterInput) : Statement (.meterPulse p input) := by
  intro _ e he
  cases he

theorem temperatureSample (p : PointId) (valid : Bool) (value : Int) : Statement (.temperatureSample p valid value) := by
  intro _ e he
  cases he

theorem sampleTimerExpiry (p : PointId) : Statement (.sampleTimerExpiry p) := by
  intro _ e he
  cases he

theorem rateUpdate (p : PointId) : Statement (.rateUpdate p) := by
  intro _ e he
  cases he

theorem openRequest (src tgt point : Nat) (tag : Tag) (product preset : Nat) (hours : Option Nat) (shift : Nat) : Statement (.openRequest src tgt point tag product preset hours shift) := by
  intro h e he
  cases he
  simp only [Instr.wf, Bool.and_eq_true] at h
  exact of_endsOk (by simp_all)

theorem hold (src tgt point : Nat) (run : Option Nat) : Statement (.hold src tgt point run) := by
  intro h e he
  cases he
  simp only [Instr.wf, Bool.and_eq_true] at h
  exact of_endsOk (by simp_all)

theorem resume (src tgt point : Nat) (run : Option Nat) : Statement (.resume src tgt point run) := by
  intro h e he
  cases he
  simp only [Instr.wf, Bool.and_eq_true] at h
  exact of_endsOk (by simp_all)

theorem cancel (src tgt point : Nat) (run : Option Nat) : Statement (.cancel src tgt point run) := by
  intro h e he
  cases he
  simp only [Instr.wf, Bool.and_eq_true] at h
  exact of_endsOk (by simp_all)

theorem unlockPoint (src tgt point : Nat) : Statement (.unlockPoint src tgt point) := by
  intro h e he
  cases he
  simp only [Instr.wf, Bool.and_eq_true] at h
  exact of_endsOk (by simp_all)

theorem unlockTank (src tgt tank : Nat) : Statement (.unlockTank src tgt tank) := by
  intro h e he
  cases he
  simp only [Instr.wf, Bool.and_eq_true] at h
  exact of_endsOk (by simp_all)

theorem nozzleLift (p : PointId) : Statement (.nozzleLift p) := by
  intro _ e he
  cases he

theorem hangUp (p : PointId) : Statement (.hangUp p) := by
  intro _ e he
  cases he

theorem restartGuardExpiry (p : PointId) : Statement (.restartGuardExpiry p) := by
  intro _ e he
  cases he

theorem primeTimerExpiry (p : PointId) : Statement (.primeTimerExpiry p) := by
  intro _ e he
  cases he

theorem noLiftTimerExpiry (p : PointId) : Statement (.noLiftTimerExpiry p) := by
  intro _ e he
  cases he

theorem queueTimerExpiry (p : PointId) : Statement (.queueTimerExpiry p) := by
  intro _ e he
  cases he

theorem holdTimerExpiry (p : PointId) : Statement (.holdTimerExpiry p) := by
  intro _ e he
  cases he

theorem stallTimerExpiry (p : PointId) : Statement (.stallTimerExpiry p) := by
  intro _ e he
  cases he

theorem lingerTimerExpiry (p : PointId) : Statement (.lingerTimerExpiry p) := by
  intro _ e he
  cases he

theorem progressTimerExpiry (p : PointId) : Statement (.progressTimerExpiry p) := by
  intro _ e he
  cases he

theorem draw (src tgt tank demand flowing : Nat) (cumulative : Word32) : Statement (.draw src tgt tank demand flowing cumulative) := by
  intro h e he
  cases he
  simp only [Instr.wf, Bool.and_eq_true] at h
  exact of_endsOk (by simp_all)

theorem peerDemandExpiry (station tank : Nat) : Statement (.peerDemandExpiry station tank) := by
  intro _ e he
  cases he

theorem drawTimerExpiry (tank : Nat) : Statement (.drawTimerExpiry tank) := by
  intro _ e he
  cases he

theorem stock (src tgt tank value : Nat) (mark : Byte) (flags : StockFlags) (verdict : Verdict) (variance : Int) : Statement (.stock src tgt tank value mark flags verdict variance) := by
  intro h e he
  cases he
  simp only [Instr.wf, Bool.and_eq_true] at h
  exact of_endsOk (by simp_all)

theorem stalenessTimerExpiry (tank : Nat) : Statement (.stalenessTimerExpiry tank) := by
  intro _ e he
  cases he

theorem gaugeSample (pos : Nat) (valid : Bool) (level temp : Int) : Statement (.gaugeSample pos valid level temp) := by
  intro _ e he
  cases he

theorem gaugeTimerExpiry (pos : Nat) : Statement (.gaugeTimerExpiry pos) := by
  intro _ e he
  cases he

theorem fillLineActive (pos : Nat) : Statement (.fillLineActive pos) := by
  intro _ e he
  cases he

theorem fillLineInactive (pos : Nat) : Statement (.fillLineInactive pos) := by
  intro _ e he
  cases he

theorem settleTimerExpiry (pos : Nat) : Statement (.settleTimerExpiry pos) := by
  intro _ e he
  cases he

theorem lengthTimerExpiry (pos : Nat) : Statement (.lengthTimerExpiry pos) := by
  intro _ e he
  cases he

theorem seek (src tgt : Nat) (tag : Tag) : Statement (.seek src tgt tag) := by
  intro h e he
  cases he
  simp only [Instr.wf, Bool.and_eq_true] at h
  exact of_endsOk (by simp_all)

theorem account (src tgt : Nat) (rec : AccountRec) : Statement (.account src tgt rec) := by
  intro h e he
  cases he
  simp only [Instr.wf, Bool.and_eq_true] at h
  exact of_endsOk (by simp_all)

theorem seekWindowExpiry (tag : Tag) : Statement (.seekWindowExpiry tag) := by
  intro _ e he
  cases he

theorem spillLineSample (line : Nat) (high : Bool) : Statement (.spillLineSample line high) := by
  intro _ e he
  cases he

theorem waterBottomSample (pos : Nat) (high : Bool) : Statement (.waterBottomSample pos high) := by
  intro _ e he
  cases he

theorem repeatTimerExpiry (zone : Nat) : Statement (.repeatTimerExpiry zone) := by
  intro _ e he
  cases he

theorem spill (src tgt zone : Nat) (kind : SourceKind) (index : Nat) : Statement (.spill src tgt zone kind index) := by
  intro h e he
  cases he
  simp only [Instr.wf, Bool.and_eq_true] at h
  exact of_endsOk (by simp_all)

theorem allclear (src tgt zone : Nat) : Statement (.allclear src tgt zone) := by
  intro h e he
  cases he
  simp only [Instr.wf, Bool.and_eq_true] at h
  exact of_endsOk (by simp_all)

theorem collect (src tgt first count : Nat) : Statement (.collect src tgt first count) := by
  intro h e he
  cases he
  simp only [Instr.wf, Bool.and_eq_true] at h
  exact of_endsOk (by simp_all)

theorem confirm (src tgt number : Nat) : Statement (.confirm src tgt number) := by
  intro h e he
  cases he
  simp only [Instr.wf] at h
  exact of_endsOk (by simp_all)

theorem presence (src tgt : Nat) (body : PresenceBody) : Statement (.presence src tgt body) := by
  intro h e he
  cases he
  simp only [Instr.wf, Bool.and_eq_true] at h
  exact of_endsOk (by simp_all)

theorem presenceTimerExpiry : Statement .presenceTimerExpiry := by
  intro _ e he
  cases he

theorem peerAbsence (station : Nat) : Statement (.peerAbsence station) := by
  intro _ e he
  cases he

theorem attemptStart (idle : Nat) : Statement (.attemptStart idle) := by
  intro _ e he
  cases he

theorem frameSent : Statement .frameSent := by
  intro _ e he
  cases he

theorem attemptBroken : Statement .attemptBroken := by
  intro _ e he
  cases he

theorem askPoint (src tgt point : Nat) : Statement (.askPoint src tgt point) := by
  intro h e he
  cases he
  simp only [Instr.wf, Bool.and_eq_true] at h
  exact of_endsOk (by simp_all)

theorem askTank (src tgt tank : Nat) : Statement (.askTank src tgt tank) := by
  intro h e he
  cases he
  simp only [Instr.wf, Bool.and_eq_true] at h
  exact of_endsOk (by simp_all)

theorem askAccount (src tgt : Nat) (tag : Tag) : Statement (.askAccount src tgt tag) := by
  intro h e he
  cases he
  simp only [Instr.wf, Bool.and_eq_true] at h
  exact of_endsOk (by simp_all)

theorem askZone (src tgt zone : Nat) : Statement (.askZone src tgt zone) := by
  intro h e he
  cases he
  simp only [Instr.wf, Bool.and_eq_true] at h
  exact of_endsOk (by simp_all)

theorem askRecon (src tgt tank : Nat) : Statement (.askRecon src tgt tank) := by
  intro h e he
  cases he
  simp only [Instr.wf, Bool.and_eq_true] at h
  exact of_endsOk (by simp_all)

theorem askPeers (src tgt : Nat) : Statement (.askPeers src tgt) := by
  intro h e he
  cases he
  simp only [Instr.wf] at h
  exact of_endsOk (by simp_all)

theorem restart (src tgt : Nat) (fingerprint : Word32) : Statement (.restart src tgt fingerprint) := by
  intro h e he
  cases he
  simp only [Instr.wf] at h
  exact of_endsOk (by simp_all)

theorem frameHeard (bytes : List Byte) : Statement (.frameHeard bytes) := by
  intro _ e he
  cases he

end Sys2Proof.Laws.Ends
end

