-- ==== Sys2Proof/Tests/Slice0.lean ====
section
/-! SUPPORT. Tests of the model: ill-formed commands, worked cases of the chapters, commands on a small station, and a witness for the hypotheses of each statement. -/
namespace Sys2Proof.Tests
open Sys2Proof.Machine

/-! ### Ill-formed commands -/

theorem test_wf_byte : Instr.wf (.askTank 9 6 256) = false := by decide
theorem test_wf_word : Instr.wf (.draw 9 0 3 65536 0 0) = false := by decide
theorem test_wf_long : Instr.wf (.confirm 9 6 4294967296) = false := by decide
theorem test_wf_signed : Instr.wf
    (.stock 9 0 3 0 0 ⟨false, false, false, false, false, false⟩ .ok 2147483648) = false := by decide
theorem test_wf_run : Instr.wf (.hold 9 6 1 (some 0)) = false := by decide
theorem test_wf_hours : Instr.wf (.openRequest 9 6 1 ⟨12, 3, 417⟩ 1 100 (some 4294967295) 0) = false := by decide
theorem test_wf_tag : Instr.wf (.seek 9 0 ⟨64, 3, 417⟩) = false := by decide
theorem test_wf_pos : Instr.wf (.gaugeTimerExpiry 5) = false := by decide
theorem test_wf_line : Instr.wf (.spillLineSample 13 true) = false := by decide
theorem test_wf_tank : Instr.wf (.drawTimerExpiry 17) = false := by decide
theorem test_wf_zone : Instr.wf (.repeatTimerExpiry 8) = false := by decide
theorem test_wf_station : Instr.wf (.peerAbsence 32) = false := by decide
theorem test_wf_straps : Instr.wf (.powerOn 32) = false := by decide
theorem test_wf_memory (l : List Byte) (h : l.length = 4097) : Instr.wf (.imageCheckDone (some l) [true, true, true, true]) = false := by
  simp [Instr.wf, memoryOk, h]
theorem test_wf_fill : Instr.wf (.imageCheckDone none [true, false, false]) = false := by decide
theorem test_wf_ends : Instr.wf (.askPeers 256 6) = false := by decide
theorem test_wf_record : Instr.wf (.account 9 0 (freshAccount ⟨12, 3, 16384⟩ 0)) = false := by decide
theorem test_wf_presence : Instr.wf
    (.presence 9 0 ⟨.lane, 0, 0, false, false, false, false, 0, [], []⟩) = false := by decide
theorem test_wf_good : Instr.wf (.openRequest 9 6 1 ⟨12, 3, 417⟩ 1 100 none 77) = true := by decide

/-! ### Worked cases of the chapters -/

/-- The worked correction cases (1.7). -/
theorem test_vcf : [vcfOf 830 (-125), vcfOf 830 450, vcfOf 830 80, vcfOf 830 150, vcfOf 10 155, vcfOf 10 145,
    vcfOf 2000 (-400), vcfOf 2000 700] = [102283, 97510, 100581, 100000, 99999, 100001, 105000, 95000] := by decide

/-- The worked shares (3.5). -/
theorem test_shares : (sharedTargets 900 [(200, 1000), (150, 600)], sharedTargets 900 [(200, 1000), (150, 300)],
    sharedTargets 1001 [(200, 1000), (150, 600), (100, 600)], sharedTargets 1800 [(200, 1000), (150, 600)])
    = ([475, 425], [600, 300], [384, 334, 283], [1000, 600]) := by decide

/-- The worked eligibility case (2.4). -/
theorem test_shares_max : (sharedTargets 1251 [(150, 600), (200, 1000)], sharedTargets 1252 [(150, 600), (200, 1000)])
    = ([600, 651], [600, 652]) := by decide

theorem test_filters : [(⟨12, 3, 417⟩ : Tag), ⟨12, 5, 20⟩, ⟨40, 3, 88⟩].map (fun t =>
    ((Machine.Filter.mk true 8 56 0 0).matches t, (Machine.Filter.mk true 0 0 3 15).matches t))
    = [(true, true), (true, false), (false, true)] := by decide

/-- The worked grant cases (2.5). -/
theorem test_grant_terms : (leastTerm 400000 2000000 702855 (some 420000), leastTerm 80000 2000000 30000 none)
    = ((.requested, 400000), (.reserve, 30000)) := by decide

/-- The worked filter sequence (7.1). -/
theorem test_line_filter : ([true, true, false, true, true, true, false, true, false, false].foldl
    (fun l high => l ++ [filterSample ⟨.sump, 3, .wetHigh, 3, 2⟩ high (l.getLastD ⟨false, 0, false⟩)]) []).map
      (fun x => (x.wet, x.count, x.sticky))
    = [(false, 1, false), (false, 2, false), (false, 0, false), (false, 1, false), (false, 2, false), (true, 0, true),
      (true, 1, true), (true, 0, true), (true, 1, true), (false, 0, true)] := by decide

/-- Edit numbers (R115) and log numbers (R155) at their wraps. -/
theorem test_wraps : [newer 0 65535, newer 65535 0, newer 32768 0, newer 0 32768] = [true, false, false, false]
    ∧ [nextLogNumber 4294967295, nextRunNumber 65535] = [1, 1]
    ∧ [logPlace 1 2 4294967295, logPlace 5 4 5, logPlace 9 4 2] = [.held, .newer, .older] := by decide

/-- The strap table (R88). -/
theorem test_strap : [0, 250, 500, 750, 1000, 1001].map (strapVolume [(0, 0), (500, 9800), (1000, 21400)])
    = [(0, false), (4900, false), (9800, false), (15600, false), (21400, false), (21400, true)] := by decide

/-! ### A small station

Station 6, with points P1 and P2 on tank 3, its home tank, in zone 2; peer 9 is present and agrees. -/

def point : PointCfg where
  product := 1
  tank := 3
  zone := 2
  k := 10
  mf := 10000
  maxRate := 1000
  floorRate := 200
  ramp := 100
  taperVol := 60
  taperRate := 150
  maxRun := 3
  mode := .auto
  forced := 250
  prime := 3
  guard := 10
  noLift := 120
  hold := 60
  linger := 20
  stall := 20
  mismatch := 5
  filter1 := ⟨false, 0, 0, 0, 0⟩
  filter2 := ⟨false, 0, 0, 0, 0⟩
  logic := .and

def image : Image where
  products := [⟨.fuel, 830⟩]
  classes := List.replicate 13 ⟨2, 6, 0⟩
  tanks := List.replicate 3 ⟨1, 6, 20000, 5, 4, 2, 1, 600, 2, 15, 50, 5, 1, 1⟩
  station := 6
  points := ⟨some point, some point, none, none, none, none⟩
  homes := [some ⟨[(0, 0), (500, 9800), (1000, 21400)], 50, 60⟩]
  lines := [some ⟨.sump, 2, .wetHigh, 1, 1⟩]
  waters := [⟨.water, 2, .wetHigh, 1, 1⟩]
  beaconMask := 4
  threshold := 3

def tag : Tag := ⟨12, 3, 417⟩

def flags : StockFlags := ⟨false, false, false, false, false, false⟩

def acc : AccountRec := { freshAccount tag 77 with edit := 312, origin := 9 }

def entry : BookEntry where
  tank := 3
  product := 1
  home := 6
  cond := .current
  stockAtMark := 2000
  mark := 7
  drawn := 100
  flags := flags
  verdict := .none
  variance := 0
  staleTimer := some 60000
  baselines := [(9, 500)]
  ownDraw := 0

/-- The station running, with everything at rest. -/
def w : State :=
  { State.reset with
    loader :=
      { phase := .running
        strap := 6
        image := some image
        imageOk := true
        fingerprint := 0x1234
        listen := none
        restartList := []
        clockMs := 50000 }
    chans := .all { Channel.reset with sampleTimer := some 2000 }
    points := .all Point.reset
    allot := [tankAllotStart 3]
    book := [entry]
    homes := [homeStart false 3]
    accounts := ⟨[⟨acc, 0⟩], []⟩
    spill := { State.reset.spill with zones := [zoneStart 0, zoneStart 2] }
    link :=
      { presence := [⟨9, some 0x1234, some 100, 0, false, false⟩]
        presenceTimer := some 5000
        seq := 4
        queue := []
        attempt := none } }

def run : RunRec where
  number := 1
  terminal := 9
  tag := tag
  priority := 2
  product := 1
  group := .fuel
  tank := 3
  zone := 2
  shift := 77
  hours := none
  requested := 200
  granted := 200
  limiter := .requested
  clamped := false
  dropout := false
  tempHeld := false
  lifted := false
  firstFlowing := none

/-- P1 with a run, its record attached. -/
def withP1 (x : Point) : State :=
  { w with points := { w.points with p1 := { x with run := some run } }, accounts := ⟨[⟨acc, 1⟩], []⟩ }

def flowing : Point :=
  { Point.reset with
    st := .flowing, pump := true, offHook := true, valve := some 200, target := 600, stall := some 20000
    progress := some 1000 }

/-- P1 FLOWING. -/
def wFlow : State :=
  { withP1 flowing with
    allot := [{ tankAllotStart 3 with admitted := [.p1], own := 600, announced := 600, timer := some 1000 }]
    chans := { w.chans with p1 := { Channel.reset with rateTimer := some 250, sampleTimer := some 2000 } } }

def held : Point :=
  { Point.reset with st := .held, pump := true, offHook := true, hold := some 60000, progress := some 1000 }

def ready : Point := { Point.reset with st := .ready, pump := true, noLift := some 120000, progress := some 1000 }

def priming : Point := { Point.reset with st := .priming, pump := true, prime := some 3000, progress := some 1000 }

def queued : Point :=
  { Point.reset with st := .queued, pump := true, offHook := true, queue := some 120000, progress := some 1000 }

/-- P1 QUEUED, with no capacity left by peer 9. -/
def wQueue : State :=
  { withP1 queued with allot := [{ tankAllotStart 3 with peers := [drawnEntry 9 600 1], queue := [.p1] }] }

/-- The header is taken by peer 9. -/
def crowd (s : State) : State := { s with allot := s.allot.map fun a => { a with peers := [drawnEntry 9 600 1] } }

/-- P1 SEEKING for a tag not held, one of its own seek. -/
def wSeek : State :=
  { w with
    points := { w.points with p1 := { Point.reset with st := .seeking, openReq := some ⟨9, ⟨12, 3, 9⟩, 150, none, 77⟩ } }
    accounts := ⟨[⟨acc, 0⟩], [⟨⟨12, 3, 9⟩, [.p1], 77, none, 250⟩]⟩ }

/-- P1 LOCKED for a HOSE fault. -/
def wLock : State :=
  { w with
    points := { w.points with p1 := { Point.reset with st := .locked, lockCause := .fault, faultHose := true } }
    spill := { w.spill with hose := { w.spill.hose with p1 := ⟨true, true, 0⟩ } } }

/-- Zone 2 TRIPPED by spill line 1, the points LOCKED and the beacon active. -/
def wTrip : State :=
  { w with
    points :=
      { w.points with
        p1 := { Point.reset with st := .locked, lockCause := .zone }
        p2 := { Point.reset with st := .locked, lockCause := .zone } }
    spill := { w.spill with zones := [zoneStart 0, ⟨2, .tripped, some (.sump, 1), some 2000, none, 0⟩], beacon := true } }

/-- A window of the home tank, with its state. -/
def wWindow (st : WindowState) (len : Timer) : State :=
  { w with homes := [{ homeStart false 3 with
      recon := { reconStart with window := st, number := 4, next := 5, g0 := 5000, m := 100, length := len } }] }

def chan (s : State) (f : Channel → Channel) : State := { s with chans := { s.chans with p1 := f s.chans.p1 } }

/-- The state a command gives. -/
def after (c : Instr) (s : State) : State :=
  match exec c s with
  | .next t => t
  | _ => s

/-! ### One command at a time -/

theorem test_open_grant : (((after (.openRequest 9 6 1 tag 1 200 none 77) w).getPoint .p1).st,
    ((after (.openRequest 9 6 1 tag 1 200 none 77) w).getPoint .p1).pump,
    (after (.openRequest 9 6 1 tag 1 200 none 77) w).link.queue.map (·.frame))
    = (.priming, true, [⟨9, .grant 1 tag 1 200 200 .requested false⟩]) := by decide

theorem test_open_denied_product : (after (.openRequest 9 6 1 tag 2 200 none 77) w).link.queue.map (·.frame)
    = [⟨9, .deny 1 tag .product⟩] := by decide

theorem test_open_seeks : (((after (.openRequest 9 6 2 ⟨12, 3, 9⟩ 1 200 none 77) w).getPoint .p2).st,
    (after (.openRequest 9 6 2 ⟨12, 3, 9⟩ 1 200 none 77) w).link.queue.map (·.frame))
    = (.seeking, [⟨0, .seek ⟨12, 3, 9⟩⟩]) := by decide

theorem test_seek_window : (((after (.seekWindowExpiry ⟨12, 3, 9⟩) wSeek).getPoint .p1).st,
    (after (.seekWindowExpiry ⟨12, 3, 9⟩) wSeek).accounts.cache.map (fun c => (c.acc.tag.unit, c.attached)))
    = (.priming, [(9, 1), (417, 0)]) := by decide

theorem test_prime_ready : ((after (.primeTimerExpiry .p1) (withP1 priming)).getPoint .p1).st = .ready := by decide

theorem test_lift_flows : (((after (.nozzleLift .p1) (withP1 ready)).getPoint .p1).st,
    ((after (.nozzleLift .p1) (withP1 ready)).getPoint .p1).valve,
    ((after (.nozzleLift .p1) (withP1 ready)).getPoint .p1).target,
    (after (.nozzleLift .p1) (withP1 ready)).link.queue.map (·.frame))
    = (.flowing, some 200, 600, [⟨0, .draw 3 600 1 0⟩]) := by decide

theorem test_lift_queues : ((after (.nozzleLift .p1) (crowd (withP1 ready))).getPoint .p1).st = .queued := by decide

/-- P1 and P2 QUEUED for 600 and 400 cL, with 900 cL above the reserve floor. -/
def wTwo : State :=
  { wQueue with
    points := { wQueue.points with
      p1 := { queued with run := some { run with granted := 600 } }
      p2 := { queued with run := some { run with number := 2, granted := 400 } } }
    allot := [{ tankAllotStart 3 with queue := [.p1, .p2] }]
    book := [{ entry with stockAtMark := 1200 }]
    accounts := ⟨[⟨acc, 2⟩], []⟩ }

/-- Heads let in by one recomputation are all tested before any of them ends (R40, R66). -/
theorem test_openings_tested_together : let t := State.retryHeads 3 2 wTwo
    (State.openedShort wTwo t 3, t.admitted 3, State.openedShort wQueue (State.retryHeads 3 1 wQueue) 3) = ([.p1, .p2], [.p1, .p2], []) := by decide

/-- A tested run that has ended in the event still counts in its reserve tests (R40, log 35); one ended otherwise does not
(R49, step 6). -/
theorem test_ended_counts : let t := State.retryHeads 3 2 wTwo
    [(t.endOpening .p1).reserveFails .p2, (t.endOpening .p1).finish.reserveFails .p2,
      ((t.endFirst .p1).endSecond .p1 .hangup).reserveFails .p2] = [true, false, false] := by decide

theorem test_hang_up_ends : (((after (.hangUp .p1) wFlow).getPoint .p1).st,
    (after (.hangUp .p1) wFlow).log.records.map (fun r => (r.entry.number, r.entry.reason)),
    (after (.hangUp .p1) wFlow).link.queue.map (fun x => x.frame.body.kind))
    = (.linger, [(1, .hangup)], [9, 12, 5]) := by decide

theorem test_pulse_taper : ((after (.meterPulse .p1 .b) (chan wFlow fun c => { c with pairing := .aWaiting, runGross := 130 })).getPoint
    .p1).st = .taper := by decide

theorem test_pulse_preset : ((after (.meterPulse .p1 .b) (chan wFlow fun c => { c with pairing := .aWaiting, runGross := 190 })).getPoint
    .p1).st = .linger := by decide

theorem test_hold : (((after (.hold 9 6 1 none) wFlow).getPoint .p1).st, ((after (.hold 9 6 1 none) wFlow).getPoint .p1).valve,
    (after (.hold 9 6 1 none) wFlow).link.queue.map (·.frame))
    = (.held, none, [⟨0, .draw 3 0 0 0⟩]) := by decide

theorem test_resume : ((after (.resume 9 6 1 (some 1)) (withP1 held)).getPoint .p1).st = .flowing := by decide

theorem test_cancel_seeking : (((after (.cancel 9 6 1 none) wSeek).getPoint .p1).st,
    (after (.cancel 9 6 1 none) wSeek).link.queue.map (·.frame))
    = (.idle, [⟨9, .deny 1 ⟨12, 3, 9⟩ .cancelled⟩]) := by decide

theorem test_unlock : ((after (.unlockPoint 9 6 1) wLock).getPoint .p1).st = .idle := by decide

theorem test_spill_line : (((after (.spillLineSample 1 true) wFlow).getPoint .p1).st,
    (after (.spillLineSample 1 true) wFlow).spill.beacon,
    (after (.spillLineSample 1 true) wFlow).log.records.map (·.entry.reason))
    = (.locked, true, [.spill]) := by decide

theorem test_allclear : (((after (.allclear 9 0 2) wTrip).getPoint .p1).st, (after (.allclear 9 0 2) wTrip).spill.beacon)
    = (.idle, false) := by decide

theorem test_spill : (((after (.spill 9 0 2 .film 1) wFlow).getPoint .p1).st,
    (after (.spill 9 0 2 .film 1) wFlow).zoneRec 2) = (.locked, some ⟨2, .echoed, none, none, some 9, 0⟩) := by decide

theorem test_repeat : (after (.repeatTimerExpiry 2) wTrip).link.queue.map (·.frame) = [⟨0, .spill 2 .sump 1⟩] := by decide

theorem test_water_bottom : (((after (.waterBottomSample 1 true) w).entry 3).map (·.flags.quarantined),
    ((after (.waterBottomSample 1 true) w).getPoint .p1).st) = (some true, .locked) := by decide

theorem test_draw : ((after (.draw 9 0 3 500 1 600) w).entry 3).map (fun e => (e.drawn, e.baselines))
    = some (200, [(9, 600)]) := by decide

theorem test_gauge_sample : ((after (.gaugeSample 1 true 1 150) w).entry 3).map (fun e => (e.stockAtMark, e.mark, e.drawn))
    = some (1900, 8, 0) := by decide

theorem test_window_closes : (after (.gaugeSample 1 true 1 150) (wWindow .due none)).homes.map (fun h => h.recon.ring)
      = [[⟨4, 3100, 100, 3000, 50, .bad⟩]]
    ∧ (after (.gaugeSample 1 true 1 150) (wWindow .due none)).homes.map (fun h => h.lossWet) = [true] := by
  decide +kernel

theorem test_account_adopted : (after (.account 9 0 { acc with edit := 313 }) w).accounts.cache.map (·.acc.edit) = [313] := by
  decide

theorem test_confirm_collect : ((after (.collect 9 6 0 1) (after (.hangUp .p1) wFlow)).log.collection.map (·.collector),
    (after (.confirm 9 6 1) (after (.hangUp .p1) wFlow)).log.uncollected) = (some 9, 0) := by decide

theorem test_attempt : (after (.attemptStart 300) (after .presenceTimerExpiry w)).link.attempt.map (fun a => a.bytes.take 5)
    = some [21, 6, 0, 4, 20] := by decide

theorem test_frame_sent : (after .frameSent (after (.attemptStart 300) (after .presenceTimerExpiry w))).link.queue = [] := by
  decide

theorem test_ask_tank : (after (.askTank 9 6 3) w).link.queue.map (fun x => x.frame.target) = [9, 9] := by decide

theorem test_restart : (((after (.restart 9 6 0x1234) wFlow).getPoint .p1).st,
    (after (.restart 9 6 0x1234) wFlow).link.queue.map (fun x => x.frame.body.kind)) = (.idle, [12, 5, 9, 10, 21]) := by
  decide

theorem test_first_look :
    let t := State.firstLook { w with homes := [homeStart true 3], book := [{ entry with cond := .unknown }] }
    ((t.entry 3).map fun e => (e.flags.receiving, e.cond, e.staleTimer), t.link.queue.map fun x => x.frame.body.kind)
      = (some (true, .unknown, some 60000), [10]) := by decide

theorem test_frame_heard : after (.frameHeard (frameBytes 9 1 ⟨0, .spill 2 .film 1⟩)) w = after (.spill 9 0 2 .film 1) w := by
  decide +kernel

theorem test_memory_silent : (after (.imageCheckDone none []) { State.reset with
    loader := { State.reset.loader with phase := .loading, strap := 6 } }).link.queue.map (fun x => x.frame.body.kind)
    = [21] := by decide

/-! ### Witnesses: states and operands that meet the hypotheses of the statements -/

def pointOk (x : Point) : Bool :=
  decide (x.run.isSome = x.st.inRun ∧ x.openReq.isSome = (x.st == .seeking) ∧ x.valve.isSome = x.st.flows
    ∧ ((x.faultMeter || x.faultHose) = true → x.st = .locked) ∧ (x.st = .idle ∨ x.st = .locked → x.pump = false)
    ∧ x.linger.isSome = (x.pump && (x.st == .linger || x.st == .seeking)) ∧ (x.prime.isSome = true → x.st = .priming)
    ∧ (x.noLift.isSome = true → x.st = .ready) ∧ (x.queue.isSome = true → x.st = .queued)
    ∧ (x.hold.isSome = true → x.st = .held) ∧ (x.stall.isSome = true → x.st.flows = true)
    ∧ (x.progress.isSome = true → x.st.inRun = true)
    ∧ (x.st = .ready ∨ x.st = .queued ∨ x.st.flows = true ∨ x.st = .held ∨ x.st = .linger → x.pump = true)
    ∧ (x.prime.isSome = true → x.pump = true))

theorem pointOk_sound {x : Point} (h : pointOk x = true) : x.Ok := by
  obtain ⟨a, b, c, d, e, f, g, i, j, k, l, m, n, o⟩ := of_decide_eq_true h
  exact ⟨a, b, c, d, e, f, g, i, j, k, l, m, n, o⟩

/-- A station ready for an event, whose tables meet every invariant that the statements take as a premise. -/
structure Good (s : State) : Prop where
  plain : s.Plain
  points : s.PointsOk
  tables : s.TablesOk
  lists : s.ListsOk
  spill : s.SpillOk
  quarantine : s.QuarantineOk
  configured : s.ConfiguredOk
  listed : s.ListedOk
  ok : s.Ok

def tablesOk (s : State) : Bool :=
  decide ((s.book.map fun e => e.tank).Nodup ∧ (s.allot.map fun t => t.tank) = (s.book.map fun e => e.tank)
    ∧ (s.homes.map fun h => h.tank).Nodup ∧ (∀ h ∈ s.homes, h.tank ∈ s.book.map fun e => e.tank)
    ∧ (s.spill.zones.map fun r => r.zone).Nodup)

def listsOk (s : State) : Bool :=
  s.allot.all fun a => decide (a.admitted.Nodup ∧ a.queue.Nodup) && allPoints.all fun p =>
    decide (p ∈ a.admitted ↔ (s.getPoint p).st.flows = true ∧ (s.getPoint p).run.map (·.tank) = some a.tank)
      && decide (p ∈ a.queue ↔ (s.getPoint p).st = .queued ∧ (s.getPoint p).run.map (·.tank) = some a.tank)

def quietOk (s : State) (p : PointId) : Bool :=
  decide ((s.zoneOf p).isSome = true → s.zonesClear p = false → (s.getPoint p).st = .locked)
    && (match s.pointCfg p with
      | some c => !(s.quarantined c.tank && (s.getPoint p).st.busy)
      | none => true)
    && (!((s.getPoint p).run.isSome || (s.getPoint p).st.busy) || (s.pointCfg p).isSome)

def good (s : State) : Bool :=
  decide ((s.up = true ∧ s.marks = EventMarks.clear) ∧ s.own ≠ 0 ∧ s.loader.restartList = [] ∧ s.log.collection = none)
    && (allPoints.all fun p => pointOk (s.getPoint p)) && tablesOk s && listsOk s
    && (decide (s.spill.beacon = s.spill.zones.any s.litBy) && allPoints.all (quietOk s)) && decide s.Ok

theorem allPoints_mem (p : PointId) : p ∈ allPoints := by cases p <;> decide

theorem good_sound {s : State} (h : good s = true) : Good s := by
  simp only [good, Bool.and_eq_true, decide_eq_true_eq, List.all_eq_true] at h
  obtain ⟨⟨⟨⟨⟨⟨h1, h2, h3, h4⟩, hp⟩, ht⟩, hl⟩, hb, hq⟩, hk⟩ := h
  obtain ⟨t1, t2, t3, t4, t5⟩ := of_decide_eq_true ht
  simp only [listsOk, Bool.and_eq_true, decide_eq_true_eq, List.all_eq_true] at hl
  refine ⟨⟨h1, h2, h3, h4⟩, fun p => pointOk_sound (hp p (allPoints_mem p)), ⟨t1, t2, t3, t4, t5⟩,
    ⟨fun a ha => (hl a ha).1, fun a ha p => ((hl a ha).2 p (allPoints_mem p)).1,
      fun a ha p => ((hl a ha).2 p (allPoints_mem p)).2⟩,
    ⟨hb, fun p => ?_⟩, fun p c hc hz => ?_, fun p hr => ?_, fun x hx => absurd hx (by simp [h3]), hk⟩
  · have := hq p (allPoints_mem p)
    simp only [quietOk, Bool.and_eq_true, decide_eq_true_eq] at this
    exact this.1.1
  · have := hq p (allPoints_mem p)
    simp only [quietOk, hc, Bool.and_eq_true, decide_eq_true_eq] at this
    simpa [hz] using this.1.2
  · have := hq p (allPoints_mem p)
    simp only [quietOk, Bool.and_eq_true] at this
    have := this.2
    rw [← Bool.or_eq_true] at hr
    rwa [hr, Bool.not_true, Bool.false_or] at this

/-- The small states above meet the invariants. -/
theorem test_good_states : Good w ∧ Good wFlow ∧ Good (withP1 held) ∧ Good (withP1 ready) ∧ Good (withP1 priming)
    ∧ Good wQueue ∧ Good wSeek ∧ Good wLock ∧ Good wTrip ∧ Good (wWindow .running (some 900000)) ∧ Good (wWindow .due none) :=
  ⟨good_sound (by decide), good_sound (by decide), good_sound (by decide), good_sound (by decide), good_sound (by decide),
    good_sound (by decide), good_sound (by decide), good_sound (by decide), good_sound (by decide),
    good_sound (by decide), good_sound (by decide)⟩

/-! #### A sound image -/

/-- A tank entry with its home station. -/
def tankBytes (home : Byte) : List Byte :=
  [1, home, 0, 0, 78, 32, 0, 0, 0, 5, 0, 0, 0, 4, 0, 0, 0, 2, 0, 0, 0, 1, 2, 88, 2, 15, 0, 0, 0, 50, 5, 1, 1]

def pointBytes : List Byte :=
  [1, 1, 3, 2, 0, 10, 39, 16, 3, 232, 0, 200, 0, 100, 0, 60, 0, 150, 0, 3, 0, 0, 250, 3, 10, 0, 120, 0, 60, 20, 20, 5]
    ++ List.replicate 9 0

/-- `l`, n times, and then `rest`. -/
def rep (n : Nat) (l rest : List Byte) : List Byte :=
  match n with
  | 0 => rest
  | n + 1 => l ++ rep n l rest

def imageFront : List Byte :=
  [8, 27, 4, 125] ++ rep 15 [1, 3, 62] (rep 64 [2, 0, 0, 0, 6, 0, 0, 0, 0] (rep 2 (tankBytes 2) (tankBytes 6
    ++ rep 13 (tankBytes 2) ([6] ++ rep 2 pointBytes (rep 164 [0]
    ([3, 0, 0, 0, 0, 0, 0, 1, 244, 0, 0, 38, 72, 3, 232, 0, 0, 83, 152] ++ rep 126 [0] ([0, 50, 0, 60] ++ rep 447 [0]
    ([1, 1, 2, 0, 17] ++ rep 55 [0] [2, 0, 17, 2, 0, 17, 2, 0, 17, 2, 0, 17, 4, 0, 3]))))))))

def readList {α : Type} (f : List Byte → Nat → Option α) (m : List Byte) (w : Nat) : Nat → Option (List α)
  | 0 => some []
  | n + 1 =>
    match f m 0, readList f (m.drop w) w n with
    | some a, some rest => some (a :: rest)
    | _, _ => none

theorem readMany_eq_readList {α : Type} (f : List Byte → Nat → Option α) (h : ∀ m o, f m o = f (m.drop o) 0) (w n : Nat) :
    ∀ m o, readMany f m o w n = readList f (m.drop o) w n := by
  induction n with
  | zero => intro m o; rfl
  | succ n ih =>
    intro m o
    simp only [readMany, readList, List.drop_drop, ← ih, ← h m o] <;> rfl

theorem readTank_drop (m : List Byte) (o : Nat) : readTank m o = readTank (m.drop o) 0 := by
  simp only [readTank, readAt, List.drop_drop, Nat.zero_add, Nat.add_zero]
  rfl

theorem readClass_drop (m : List Byte) (o : Nat) : readClass m o = readClass (m.drop o) 0 := by
  simp only [readClass, readAt, List.drop_drop, Nat.zero_add, Nat.add_zero]
  rfl

theorem readLine_drop (m : List Byte) (o : Nat) : readLine m o = readLine (m.drop o) 0 := by
  simp only [readLine, readLineFields, readAt, List.drop_drop, Nat.zero_add, Nat.add_zero]
  rfl

theorem readPoint_drop (m : List Byte) (o : Nat) : readPoint m o = readPoint (m.drop o) 0 := by
  simp only [readPoint, readFilter, readAt, List.drop_drop, Nat.zero_add, Nat.add_zero, Nat.add_assoc]
  rfl

theorem beNat_crc (c : Word32) : beNat (beBytes 4 c.toNat) = c.toNat := by
  have h := c.isLt
  simp only [beNat, beBytes, List.foldl, BitVec.toNat_ofNat]
  omega

/-- A memory that the framing places, that its fields' ranges allow, and that its own CRC-32 closes, is a sound image. -/
theorem checkImage_closed (m : List Byte) (c : Image) (h : m.length = 2071) (hb : readAt m 0 2 = 2075) (hc : readAt m 2 2 = 1149)
    (hr : readImage (m ++ beBytes 4 (crc32 m).toNat) = some c) (hs : c.station = 6) :
    ∃ fp, checkImage (some (m ++ beBytes 4 (crc32 m).toNat)) 6 = (some c, fp) := by
  have h2 (o : Nat) (ho : o + 2 ≤ 2071) : readAt (m ++ beBytes 4 (crc32 m).toNat) o 2 = readAt m o 2 := by
    simp only [readAt]
    rw [List.drop_append_of_le_length (by omega), List.take_append_of_le_length (by simp; omega)]
  have hd : readAt (m ++ beBytes 4 (crc32 m).toNat) 2071 4 = (crc32 m).toNat := by
    simp only [readAt]
    rw [← h, List.drop_left, List.take_of_length_le (by simp [beBytes]), beNat_crc]
  have ht : (m ++ beBytes 4 (crc32 m).toNat).take 2071 = m := by
    rw [← h, List.take_left]
  have hl : (m ++ beBytes 4 (crc32 m).toNat).length = 2075 := by simp [h, beBytes]
  simp [checkImage, h2, hb, hc, hl, ht, hd, hr, hs, Config.imageBytes]

def imageMemory : List Byte := imageFront ++ beBytes 4 (crc32 imageFront).toNat

/-- The tanks and the points of the image, read from their sections. -/
theorem imageMemory_tanks : ∃ ts p q, readList readTank (imageMemory.drop 625) 33 16 = some ts
    ∧ readPoint (imageMemory.drop 1154) 0 = some p ∧ readPoint (imageMemory.drop 1195) 0 = some q
    ∧ (homeTanks ts 6).length = 1 ∧ Image.consistent ⟨[], [], ts, 6, ⟨p, q, none, none, none, none⟩, [], [], [], 0, 0⟩ = true := by
  have h : (readList readTank (imageMemory.drop 625) 33 16).any (fun ts => (readPoint (imageMemory.drop 1154) 0).any fun p =>
      (readPoint (imageMemory.drop 1195) 0).any fun q => (homeTanks ts 6).length == 1
        && Image.consistent ⟨[], [], ts, 6, ⟨p, q, none, none, none, none⟩, [], [], [], 0, 0⟩) = true := by decide +kernel
  simp only [Option.any_eq_true_iff_get, Bool.and_eq_true, beq_iff_eq] at h
  obtain ⟨h1, h2, h3, h4, h5⟩ := h
  exact ⟨_, _, _, (Option.some_get h1).symm, (Option.some_get h2).symm, (Option.some_get h3).symm, h4, h5⟩

theorem isSome_eq {α : Type} {o : Option α} (h : o.isSome = true) : ∃ a, o = some a := Option.isSome_iff_exists.1 h

theorem readImage_of {m : List Byte} {ps cs ts hs ls ws} {p q : Option PointCfg}
    (h1 : readList readTank (m.drop 625) 33 16 = some ts) (h2 : readPoint (m.drop 1154) 0 = some p)
    (h3 : readPoint (m.drop 1195) 0 = some q) (h4 : (homeTanks ts 6).length = 1)
    (h5 : Image.consistent ⟨[], [], ts, 6, ⟨p, q, none, none, none, none⟩, [], [], [], 0, 0⟩ = true)
    (h6 : readMany readProduct m 4 3 15 = some ps) (h7 : readList readClass (m.drop 49) 9 64 = some cs)
    (h8 : readHomes m 1400 1 4 = some hs) (h9 : readList readLine (m.drop 1996) 5 12 = some ls)
    (h10 : readMany readWater m 2056 3 4 = some ws) (n1 : readAt m 1153 1 = 6) (n2 : readAt m 2069 2 = 3)
    (e1 : readPoint m 1236 = some none) (e2 : readPoint m 1277 = some none) (e3 : readPoint m 1318 = some none)
    (e4 : readPoint m 1359 = some none) : ∃ c, readImage m = some c ∧ c.station = 6 := by
  rw [← readMany_eq_readList _ readTank_drop] at h1
  rw [← readMany_eq_readList _ readClass_drop] at h7
  rw [← readMany_eq_readList _ readLine_drop] at h9
  rw [← readPoint_drop] at h2 h3
  refine ⟨⟨ps, cs, ts, 6, ⟨p, q, none, none, none, none⟩, hs, ls, ws, BitVec.ofNat 8 (readAt m 2068 1), 3⟩, ?_, rfl⟩
  have h5' : Image.consistent ⟨ps, cs, ts, 6, ⟨p, q, none, none, none, none⟩, hs, ls, ws, BitVec.ofNat 8 (readAt m 2068 1), 3⟩
      = true := h5
  simp [readImage, readBay, readPoints, h1, h2, h3, h4, h5', h6, h7, h8, h9, h10, n1, n2, e1, e2, e3, e4, within]

theorem imageMemory_reads : ∃ c, readImage imageMemory = some c ∧ c.station = 6 := by
  obtain ⟨ts, p, q, h1, h2, h3, h4, h5⟩ := imageMemory_tanks
  obtain ⟨ps, h6⟩ := isSome_eq (show (readMany readProduct imageMemory 4 3 15).isSome = true by decide +kernel)
  obtain ⟨cs, h7⟩ := isSome_eq (show (readList readClass (imageMemory.drop 49) 9 64).isSome = true by decide +kernel)
  obtain ⟨hs, h8⟩ := isSome_eq (show (readHomes imageMemory 1400 1 4).isSome = true by decide +kernel)
  obtain ⟨ls, h9⟩ := isSome_eq (show (readList readLine (imageMemory.drop 1996) 5 12).isSome = true by decide +kernel)
  obtain ⟨ws, h10⟩ := isSome_eq (show (readMany readWater imageMemory 2056 3 4).isSome = true by decide +kernel)
  exact readImage_of h1 h2 h3 h4 h5 h6 h7 h8 h9 h10 (by decide +kernel) (by decide +kernel) (by decide +kernel)
    (by decide +kernel) (by decide +kernel) (by decide +kernel)

/-- A sound image of the strap setting 6. -/
theorem test_sound_image : ∃ c fp, checkImage (some imageMemory) 6 = (some c, fp) := by
  obtain ⟨c, hr, hs⟩ := imageMemory_reads
  obtain ⟨fp, h⟩ := checkImage_closed imageFront c (by decide +kernel) (by decide +kernel) (by decide +kernel) hr hs
  exact ⟨c, fp, h⟩

/-! #### The queue, the invariants and start-up -/

/-- P1 FLOWING with a hang-up waiting. -/
def wPending : State := { wFlow with pending := [.hangUp .p1, .allclear 9 0 2] }

theorem test_wit_StepRunsTheFrontCommand : wPending.pending = .hangUp .p1 :: [.allclear 9 0 2] := rfl

theorem test_wit_EmptyQueueLetsAMillisecondPass : w.pending = [] ∧ w.loader.phase ≠ .resetHeld
    ∧ (w.getChan .p1).sampleTimer = some 2000 ∧ w.link.presenceTimer = some 5000
    ∧ State.reset.pending = [] ∧ State.reset.loader.phase = .resetHeld := by decide

theorem test_wit_StepsKeepTheInvariants : Good wPending ∧ (∃ t, step wPending = .next t) ∧ Good w ∧ ∃ t, step w = .next t :=
  ⟨good_sound (by decide), ⟨_, rfl⟩, good_sound (by decide), ⟨_, rfl⟩⟩

theorem test_wit_ResetAndPowerOnBeginAfresh : State.reset.up = false ∧ Instr.hangUp .p1 ≠ .resetLineAsserted
    ∧ (∀ n, Instr.hangUp .p1 ≠ .powerOn n) ∧ ∀ m f, Instr.hangUp .p1 ≠ .imageCheckDone m f :=
  ⟨by decide, nofun, nofun, nofun⟩

/-- The station in LOADING with a strap setting. -/
def wLoading (strap : Nat) : State := after (.powerOn strap) State.reset

theorem test_wit_SoundImageStartsTheStation : (wLoading 6).loader.phase = .loading ∧ (wLoading 6).marks = EventMarks.clear
    ∧ (wLoading 6).own = 6 ∧ ∃ c fp, checkImage (some imageMemory) (wLoading 6).own = (some c, fp) :=
  ⟨by decide, by decide, by decide, test_sound_image⟩

theorem test_wit_DamagedImageLocksTheStation : (wLoading 31).loader.phase = .loading ∧ (wLoading 31).marks = EventMarks.clear
    ∧ checkImage none (wLoading 31).own = (none, 0) ∧ (wLoading 31).own ≠ 0
    ∧ checkImage (some [8, 27]) (wLoading 0).own = (none, 0) ∧ (wLoading 0).own = 0 := by decide

/-- The station LISTENING. -/
def wListen : State := { w with loader := { w.loader with phase := .listening, listen := some 6000 } }

theorem test_wit_ListenAndPresenceTimersExpire : Good wListen ∧ wListen.loader.listen.isSome = true ∧ w.loader.listen = none
    ∧ w.link.presenceTimer.isSome = true := ⟨good_sound (by decide), by decide⟩

/-- P1 FLOWING, P2 SEEKING, a SPILL and a DRAW waiting in the transmit queue. -/
def wMixed : State :=
  { wFlow with
    points := { wFlow.points with p2 := { Point.reset with st := .seeking, openReq := some ⟨9, ⟨12, 3, 9⟩, 150, none, 77⟩ } }
    accounts := ⟨wFlow.accounts.cache, [⟨⟨12, 3, 9⟩, [.p2], 77, none, 250⟩]⟩
    link := { wFlow.link with queue := [newSlot ⟨0, .draw 3 600 1 0⟩ false, newSlot ⟨0, .spill 4 .film 1⟩ false] } }

theorem test_wit_RestartEndsRunsAndKeepsTheRest : Good wFlow ∧ wFlow.FromPeer 9 ∧ wFlow.FromPeer 1 ∧ wFlow.FromPeer 31 ∧ wFlow.Named 6
    ∧ (0x1234 : Word32) = wFlow.loader.fingerprint ∧ (0x1235 : Word32) ≠ wFlow.loader.fingerprint
    ∧ Good wMixed ∧ (allPoints.filter fun p => (wMixed.getPoint p).run.isSome) = [.p1]
    ∧ (wMixed.link.queue.filter fun x => x.cls == 0).length = 1
    ∧ (wMixed.getPoint .p2).openReq = some ⟨9, ⟨12, 3, 9⟩, 150, none, 77⟩ :=
  ⟨good_sound (by decide), by decide, by decide, by decide, by decide, by decide, by decide, good_sound (by decide), by decide⟩

theorem test_restart_mixed : (after (.restart 9 6 0x1234) wMixed).link.queue.map (fun x => x.frame.body.kind)
    = [13, 12, 5, 3, 9, 10, 21] ∧ (after (.restart 9 6 0x1234) wMixed).accounts.seeks = []
    ∧ (after (.restart 9 6 0x1234) wMixed).accounts.cache.map (fun c => (c.acc.tag, c.attached)) = [(tag, 0)] := by decide

/-! #### Metering -/

def paired (x : Pairing) (s : State) : State := chan s fun c => { c with pairing := x }

theorem test_wit_PulsesAreDecodedByTheTable : Good (paired .aWaiting w) ∧ Good (paired .bWaiting w) ∧ (w.pointCfg .p1).isSome = true
    ∧ ((paired .aWaiting w).getChan .p1).pairing = .aWaiting ∧ ((paired .bWaiting w).getChan .p1).pairing = .bWaiting
    ∧ (w.getChan .p1).pairing = .none := ⟨good_sound (by decide), good_sound (by decide), by decide⟩

theorem test_wit_ForwardPulsesCreditVolume : Good (paired .aWaiting wFlow) ∧ (wFlow.pointCfg .p1) = some point
    ∧ ((paired .aWaiting wFlow).getChan .p1).pairing = .aWaiting ∧ (wFlow.getPoint .p1).run = some run
    ∧ (((paired .aWaiting wFlow).getChan .p1).grossRes + point.mf) / (point.k * 100) = 10
    ∧ wFlow.entry run.tank = some entry := ⟨good_sound (by decide), by decide⟩

/-- P1 IDLE with creep, a pulse of port A waiting. -/
def wCreep (n : Nat) : State := chan (paired .aWaiting w) fun c => { c with creep := n }

theorem test_wit_CreditsOutsideARunAreCreep : Good (wCreep 190) ∧ Good (wCreep 191) ∧ ((wCreep 190).getPoint .p1).run = none
    ∧ ((wCreep 190).getHose .p1).wet = false ∧ ¬ 200 < satAdd 2000000 ((wCreep 190).getChan .p1).creep 10
    ∧ 200 < satAdd 2000000 ((wCreep 191).getChan .p1).creep 10 :=
  ⟨good_sound (by decide), good_sound (by decide), by decide⟩

/-- P1 in FORCED mode. -/
def wForced : State :=
  { w with
    loader :=
      { w.loader with image := some { image with points := { image.points with p1 := some { point with mode := .forced } } } } }

theorem test_wit_TemperatureSamplesAreGoodOrHeld_and_VcfFollowsR13 : Good w ∧ point.mode = .auto ∧ goodTemp (-400) = true ∧ goodTemp 700 = true
    ∧ goodTemp (-401) = false ∧ goodTemp 701 = false ∧ Good wForced
    ∧ wForced.pointCfg .p1 = some { point with mode := .forced } ∧ w.pointCfg .p3 = none
    ∧ (w.getChan .p1).sampleTimer.isSome = true ∧ ((chan w fun c => { c with sampleTimer := none }).getChan .p1).sampleTimer = none
    ∧ Good (chan w fun c => { c with sampleTimer := none }) :=
  ⟨good_sound (by decide), by decide, by decide, by decide, by decide, by decide, good_sound (by decide),
    by decide, by decide, by decide, by decide, good_sound (by decide)⟩

/-- P1 FLOWING with a rate accumulator and an over-rate count. -/
def wRate (acc count : Nat) : State :=
  let s := chan wFlow fun c => { c with rateAcc := acc }
  { s with spill := { s.spill with hose := { s.spill.hose with p1 := ⟨false, false, count⟩ } } }

theorem test_wit_RateUpdatesMeasureAndRamp : Good (wRate 501 2) ∧ Good (wRate 500 2) ∧ Good (wRate 501 1)
    ∧ ((wRate 501 2).getChan .p1).rateTimer.isSome = true ∧ ((wRate 501 2).getChan .p1).rateAcc * 12 / 5 ≤ 65535
    ∧ point.maxRate * 6 < rateOf 501 * 5 ∧ ¬ point.maxRate * 6 < rateOf 500 * 5
    ∧ ((wRate 501 2).getHose .p1).overRate = 2 :=
  ⟨good_sound (by decide), good_sound (by decide), good_sound (by decide), by decide⟩

/-! #### Opens and grants -/

/-- The rows of R23 in order, each met by a station and an OPEN. -/
def openRows : List (State × Nat × Tag × Nat × Nat × DenyReason) :=
  [(wListen, 1, tag, 1, 200, .starting), (w, 3, tag, 1, 200, .noPoint), (w, 7, tag, 1, 200, .noPoint),
    (wTrip, 1, tag, 1, 200, .locked), (wLock, 1, tag, 1, 200, .fault), (wFlow, 1, tag, 1, 200, .busy),
    (wSeek, 1, tag, 1, 200, .busy), (w, 1, tag, 2, 200, .product), (w, 1, tag, 1, 99, .badPreset),
    ({ w with book := [{ entry with flags := { flags with quarantined := true } }] }, 1, tag, 1, 200, .quarantine),
    (w, 1, { tag with unit := 0 }, 1, 200, .ineligible)]

/-- The reason of an OPEN that fails its tests. -/
def denied (x : Except DenyReason (PointId × PointCfg)) : Option DenyReason :=
  match x with
  | .error r => some r
  | .ok _ => none

theorem test_wit_OpenIsTestedInOrder : (∀ x ∈ openRows, Good x.1 ∧ x.1.FromPeer 9 ∧ x.1.Named 6)
    ∧ openRows.map (fun x => denied (x.1.openTest x.2.1 x.2.2.1 x.2.2.2.1 x.2.2.2.2.1))
      = openRows.map (fun x => some x.2.2.2.2.2) ∧ ¬ w.Addressed 5 := by
  refine ⟨fun x hx => ?_, by decide, by decide⟩
  have h : (openRows.all fun x => good x.1 && decide (x.1.FromPeer 9 ∧ x.1.Named 6)) = true := by decide
  have hx := List.all_eq_true.1 h x hx
  simp only [Bool.and_eq_true, decide_eq_true_eq] at hx
  exact ⟨good_sound hx.1, hx.2⟩

theorem test_wit_GrantTermsFollowTheRules : w.entry 3 = some entry ∧ w.tankCfg 3 = nth1 image.tanks 3 ∧ (w.tankCfg 3).isSome = true
    ∧ entry.cond = .current ∧ ({ entry with cond := .stale } : BookEntry).cond = .stale
    ∧ ({ w with book := [{ entry with cond := .unknown }] } : State).entry 3 = some { entry with cond := .unknown } := by decide

/-- P1 with its pump on, the linger timer running. -/
def wLinger : State :=
  { w with points := { w.points with p1 := { Point.reset with st := .linger, pump := true, linger := some 20000 } } }

/-- P1 with the restart guard running. -/
def wGuard : State := { w with points := { w.points with p1 := { Point.reset with guard := some 10000 } } }

/-- The home tank with little stock. -/
def wLow : State := { w with book := [{ entry with stockAtMark := 250 }] }

theorem test_wit_OpenOnAHeldRecordIsDecided : Good w ∧ Good wLinger ∧ Good wGuard ∧ Good wLow ∧ w.FromPeer 9 ∧ w.Named 6
    ∧ w.account tag = some ⟨acc, 0⟩ ∧ w.productCfg 1 = some ⟨.fuel, 830⟩ ∧ w.classCfg 12 = some ⟨2, 6, 0⟩
    ∧ leastTerm 200 300 (w.reserveTerm 3 2) (w.allowanceTerm ⟨2, 6, 0⟩ .fuel tag acc) = (.requested, 200)
    ∧ leastTerm 200 300 (wLow.reserveTerm 3 2) (wLow.allowanceTerm ⟨2, 6, 0⟩ .fuel tag acc) = (.reserve, 0)
    ∧ (w.openTest 1 tag 1 200).toOption = some (.p1, point) ∧ (wLinger.openTest 1 tag 1 200).toOption = some (.p1, point)
    ∧ (wGuard.openTest 1 tag 1 200).toOption = some (.p1, point) ∧ (wLow.openTest 1 tag 1 200).toOption = some (.p1, point) :=
  ⟨good_sound (by decide), good_sound (by decide), good_sound (by decide), good_sound (by decide), by decide⟩

/-- Six seeks, the second and third of them idle. -/
def wSix : State :=
  { wSeek with
    accounts := ⟨[⟨acc, 0⟩], ([(9, [.p1]), (10, []), (11, []), (12, []), (13, []), (14, [])] : List (Nat × List PointId)).map
      fun x => ⟨⟨12, 3, x.1⟩, x.2, 77, none, 250⟩⟩ }

theorem test_wit_OpenOnATagNotHeldSeeks : ((w.openTest 2 ⟨12, 3, 9⟩ 1 200).toOption = some (.p2, point) ∧ Good wSix
      ∧ (wSix.openTest 2 ⟨12, 3, 8⟩ 1 200).toOption = some (.p2, point) ∧ wSix.seekFor ⟨12, 3, 8⟩ = none
      ∧ wSix.accounts.seeks.length = 6 ∧ (∃ pre k post, wSix.accounts.seeks = pre ++ k :: post ∧ (∀ x ∈ pre, x.waiting ≠ [])
        ∧ k.waiting = [] ∧ k.tag = ⟨12, 3, 10⟩)
      ∧ (after (.openRequest 9 6 2 ⟨12, 3, 8⟩ 1 200 none 77) wSix).accounts.seeks.map (·.tag.unit) = [9, 11, 12, 13, 14, 8])
    ∧ (w.openTest 2 ⟨12, 3, 9⟩ 1 200).toOption = some (.p2, point) ∧ w.account ⟨12, 3, 9⟩ = none
    ∧ w.seekFor ⟨12, 3, 9⟩ = none ∧ (wSeek.openTest 2 ⟨12, 3, 9⟩ 1 200).toOption = some (.p2, point)
    ∧ wSeek.account ⟨12, 3, 9⟩ = none ∧ (wSeek.seekFor ⟨12, 3, 9⟩).isSome = true :=
  ⟨⟨by decide, good_sound (by decide), by decide, by decide, by decide, ⟨wSix.accounts.seeks.take 1,
    ⟨⟨12, 3, 10⟩, [], 77, none, 250⟩, wSix.accounts.seeks.drop 2, by decide⟩, by decide⟩, by decide⟩

/-! #### Runs -/

theorem test_wit_HoldPutsAPointInHeld : Good wFlow ∧ wFlow.runNamed .p1 none = true ∧ wFlow.runNamed .p1 (some 1) = true
    ∧ wFlow.runNamed .p1 (some 2) = false ∧ (wFlow.getPoint .p1).st.flows = true ∧ (wFlow.getPoint .p1).run = some run
    ∧ (wFlow.tankAllot 3).isSome = true ∧ (w.getPoint .p1).st.flows = false := ⟨good_sound (by decide), by decide⟩

/-- P1 PRIMING, lifted. -/
def wPrimed : State :=
  { withP1 priming with
    points := { w.points with p1 := { priming with offHook := true, run := some { run with lifted := true } } } }

/-- P1 READY, its tank at the reserve. -/
def wReserve : State := { withP1 ready with book := [{ entry with stockAtMark := 200 }] }

/-- The home tank at its reserve. -/
def atReserve (s : State) : State := { s with book := [{ entry with stockAtMark := 200 }] }

theorem test_wit_AdmissionOpensTheValve_reserve : (Good (atReserve (withP1 held)) ∧ Good (atReserve wPrimed))
    ∧ ((atReserve (withP1 held)).givesAdmission 3 200 ∧ (atReserve wPrimed).givesAdmission 3 200)
    ∧ (atReserve (withP1 held)).reserveFails .p1 = true ∧ (atReserve wPrimed).reserveFails .p1 = true
    ∧ ((atReserve (withP1 held)).getPoint .p1).st = .held ∧ (atReserve (withP1 held)).runNamed .p1 none = true
    ∧ ((atReserve wPrimed).getPoint .p1).prime.isSome = true
    ∧ [after (.resume 9 6 1 none) (atReserve (withP1 held)), after (.primeTimerExpiry .p1) (atReserve wPrimed)].map
        (fun t => ((t.getPoint .p1).st, t.log.records.map (·.entry.reason))) = [(.linger, [.reserve]), (.linger, [.reserve])] := by
  refine ⟨⟨good_sound (by decide), good_sound (by decide)⟩, ?_, by decide⟩
  simp only [State.givesAdmission]
  decide

theorem test_wit_AdmissionOpensTheValve : (Good (withP1 held) ∧ Good (withP1 ready) ∧ Good wPrimed ∧ Good wReserve)
    ∧ ((withP1 held).givesAdmission 3 200 ∧ (withP1 ready).givesAdmission 3 200 ∧ wPrimed.givesAdmission 3 200
      ∧ wReserve.givesAdmission 3 200)
    ∧ [(withP1 held).reserveFails .p1, (withP1 ready).reserveFails .p1, wPrimed.reserveFails .p1, wReserve.reserveFails .p1]
      = [false, false, false, true]
    ∧ ((withP1 ready).getPoint .p1).offHook = false ∧ (wReserve.getPoint .p1).offHook = false
    ∧ (wPrimed.getPoint .p1).prime.isSome = true ∧ (wPrimed.getPoint .p1).run = some { run with lifted := true } := by
  refine ⟨⟨good_sound (by decide), good_sound (by decide), good_sound (by decide), good_sound (by decide)⟩, ?_, ?_⟩
  · simp only [State.givesAdmission]
    decide
  · decide

theorem test_wit_AdmissionNotGivenQueuesThePoint :
    (Good (crowd (withP1 held)) ∧ Good (crowd (withP1 ready)) ∧ Good (crowd wPrimed))
    ∧ (crowd (withP1 held)).refusesAdmission 3 200 ∧ (crowd (withP1 ready)).refusesAdmission 3 200
    ∧ (crowd wPrimed).refusesAdmission 3 200 := by
  refine ⟨⟨good_sound (by decide), good_sound (by decide), good_sound (by decide)⟩, ?_, ?_, ?_⟩ <;>
    exact show ¬ _ by decide

/-- P1 in TAPER. -/
def wTaper : State :=
  { wFlow with points := { wFlow.points with p1 := { (wFlow.getPoint .p1) with st := .taper, valve := some 150, target := 150 } } }

/-- A point's record with the nozzle off its hook. -/
def unhooked (s : State) : State := { s with points := { s.points with p1 := { s.points.p1 with offHook := true } } }

theorem test_wit_HangUpFollowsR38 :
    (Good wFlow ∧ Good wTaper ∧ Good (withP1 held) ∧ Good (unhooked (withP1 priming)) ∧ Good (unhooked (withP1 ready))
      ∧ Good wQueue)
    ∧ [wFlow, wTaper, withP1 held, unhooked (withP1 priming), unhooked (withP1 ready), wQueue].map (fun s =>
        ((s.getPoint .p1).st, (s.getPoint .p1).offHook, decide ((s.getPoint .p1).run = some run)))
      = [(.flowing, true, true), (.taper, true, true), (.held, true, true), (.priming, true, true), (.ready, true, true),
        (.queued, true, true)] :=
  ⟨⟨good_sound (by decide), good_sound (by decide), good_sound (by decide), good_sound (by decide),
    good_sound (by decide), good_sound (by decide)⟩, by decide⟩

/-- P1 PRIMING, its pump waiting for the guard. -/
def wPrimeGuard : State := withP1 { Point.reset with st := .priming, guard := some 10000, progress := some 1000 }

/-- P1 SEEKING with its pump on and the linger timer running. -/
def wSeekLinger : State :=
  { wSeek with points := { wSeek.points with p1 := { (wSeek.getPoint .p1) with pump := true, linger := some 20000 } } }

theorem test_wit_PointTimersFollowTheirRules : (Good wPrimeGuard ∧ Good wGuard ∧ Good wLinger ∧ Good wSeekLinger ∧ Good (unhooked w))
    ∧ (wPrimeGuard.getPoint .p1).guard.isSome = true ∧ (wPrimeGuard.getPoint .p1).pump = false
    ∧ (wGuard.getPoint .p1).guard.isSome = true ∧ ((withP1 priming).getPoint .p1).prime.isSome = true ∧ run.lifted = false
    ∧ (wLinger.getPoint .p1).linger.isSome = true ∧ (wSeekLinger.getPoint .p1).linger.isSome = true
    ∧ (wFlow.getPoint .p1).progress.isSome = true ∧ ((unhooked w).getPoint .p1).run = none
    ∧ (w.getPoint .p1).offHook = false ∧ (w.getPoint .p1).st ≠ .ready :=
  ⟨⟨good_sound (by decide), good_sound (by decide), good_sound (by decide), good_sound (by decide),
    good_sound (by decide)⟩, by decide⟩

theorem test_wit_CancelFollowsR45 : Good wFlow ∧ Good wSeek ∧ (wFlow.getPoint .p1).run = some run
    ∧ wFlow.runNamed .p1 (some 1) = true ∧ (wSeek.getPoint .p1).openReq = some ⟨9, ⟨12, 3, 9⟩, 150, none, 77⟩
    ∧ (wSeekLinger.getPoint .p1).linger.isSome = true ∧ (w.getPoint .p1).st = .idle ∧ (wLinger.getPoint .p1).st = .linger
    ∧ (wLock.getPoint .p1).st = .locked ∧ wFlow.runNamed .p1 (some 2) = false :=
  ⟨good_sound (by decide), good_sound (by decide), by decide⟩

theorem test_wit_RunTimersEndTheRun : ((withP1 ready).getPoint .p1).noLift.isSome = true ∧ (wQueue.getPoint .p1).queue.isSome = true
    ∧ ((withP1 held).getPoint .p1).hold.isSome = true ∧ (wFlow.getPoint .p1).stall.isSome = true := by decide

/-- P1 LOCKED for a fault in a zone that is not CLEAR. -/
def wLockShut : State :=
  { wTrip with points := { wTrip.points with p1 := { (wTrip.getPoint .p1) with faultMeter := true } } }

/-- P3, not configured, LOCKED for good, with a fault. -/
def wLockFixed : State :=
  { w with
    points := { w.points with p3 := { Point.reset with st := .locked, lockCause := .image, permanent := .image, faultMeter := true } } }

theorem test_wit_UnlockClearsPointFaults : Good wLock ∧ Good wLockShut ∧ Good wLockFixed ∧ (wLock.getPoint .p1).faultHose = true
    ∧ wLock.zonesClear .p1 = true ∧ (wLockShut.getPoint .p1).faultMeter = true ∧ wLockShut.zonesClear .p1 = false
    ∧ (wLockFixed.getPoint .p3).faultMeter = true ∧ (wLockFixed.getPoint .p3).permanent ≠ .none
    ∧ ((w.getPoint .p1).faultMeter || (w.getPoint .p1).faultHose) = false :=
  ⟨good_sound (by decide), good_sound (by decide), good_sound (by decide), by decide⟩

/-- P1 FLOWING with its counts of unmatched and reverse pulses. -/
def wCounts (x : Pairing) (unmatched reverse : Nat) : State :=
  chan wFlow fun c => { c with pairing := x, unmatched := unmatched, reverse := reverse }

theorem test_wit_PulsesPastTheirLimitRaiseMeter : Good (wCounts .aWaiting 5 0) ∧ Good (wCounts .bWaiting 0 10)
    ∧ Good (wCounts .bWaiting 5 0) ∧ point.mismatch < satAdd max32 ((wCounts .bWaiting 5 0).getChan .p1).unmatched 1
    ∧ (∀ q ∈ (wCounts .bWaiting 5 0).waiting 3, q = .p1) ∧ (wCounts .bWaiting 5 0).link.queue.length ≤ 5
    ∧ point.mismatch < satAdd max32 ((wCounts .aWaiting 5 0).getChan .p1).unmatched 1
    ∧ ¬ point.mismatch < satAdd max32 ((wCounts .aWaiting 4 0).getChan .p1).unmatched 1
    ∧ point.k < satAdd max32 ((wCounts .bWaiting 0 10).getChan .p1).reverse 1 :=
  ⟨good_sound (by decide), good_sound (by decide), good_sound (by decide), by decide⟩

/-- P1 FLOWING with a gross volume delivered. -/
def wGross (n : Nat) : State := chan wFlow fun c => { c with pairing := .aWaiting, runGross := n }

/-- P1 FLOWING near its taper threshold, its tank so low that the reserve test fails after some credits. -/
def wShort (stock : Nat) : State := { wGross 130 with book := [{ entry with stockAtMark := stock }] }

/-- Whether the reserve test fails at one of the ten standard centilitres of the next credit. -/
def shortOf (s : State) : Bool := (List.range 10).any fun k =>
  ((s.modChan .p1 fun ch => { ch with runStd := satAdd 4000000 ch.runStd (k + 1) }).modEntry 3 fun e =>
    { e with drawn := satAdd max32 e.drawn (k + 1) }).reserveFails .p1

theorem test_wit_PresetAndTaperFollowTheCredits_reserve : Good (wShort 305) ∧ shortOf (wShort 305) = true
    ∧ shortOf (wGross 130) = false ∧ ((wShort 305).tankAllot 3).isSome = true
    ∧ (((wGross 130).getChan .p1).stdRes + 10 * ((wGross 130).getChan .p1).vcf) / 100000 = 10
    ∧ ((after (.meterPulse .p1 .b) (wShort 305)).getPoint .p1).st = .linger
    ∧ (after (.meterPulse .p1 .b) (wShort 305)).log.records.map (·.entry.reason) = [.reserve] :=
  ⟨good_sound (by decide), by decide⟩

theorem test_wit_PresetAndTaperFollowTheCredits_dropout : Good (chan (wGross 130) fun c => { c with streak := 3 })
    ∧ ((after (.meterPulse .p1 .b) (chan (wGross 130) fun c => { c with streak := 3 })).getPoint .p1).st = .taper
    ∧ ((after (.meterPulse .p1 .b) (chan (wGross 130) fun c => { c with streak := 3 })).getPoint .p1).run
      = some { run with dropout := true } :=
  ⟨good_sound (by decide), by decide⟩

theorem test_wit_PresetAndTaperFollowTheCredits : Good (wGross 190) ∧ Good (wGross 189) ∧ Good (wGross 130)
    ∧ (((wGross 190).getChan .p1).grossRes + point.mf) / (point.k * 100) = 10
    ∧ run.granted ≤ ((wGross 190).getChan .p1).runGross + 10 ∧ ((wGross 189).getChan .p1).runGross + 10 < run.granted
    ∧ run.granted ≤ ((wGross 130).getChan .p1).runGross + 10 + point.taperVol
    ∧ (wFlow.getPoint .p1).st.flows = true :=
  ⟨good_sound (by decide), good_sound (by decide), good_sound (by decide), by decide⟩

/-! #### Allotment and stock -/

theorem test_wit_SharesPourTheCapacity : (w.tankCfg 3).isSome = true ∧ (w.tankAllot 3).isSome = true
    ∧ (∀ r ∈ [(200, 1000), (150, 150)], r.1 ≤ r.2) := by decide

/-- A station of whose tank peer 9 makes a demand. -/
def wPeer : State := { w with allot := [{ tankAllotStart 3 with peers := [drawnEntry 9 600 1] }] }

theorem test_wit_DrawIsTakenByAllotterAndBook : Good w ∧ w.Addressed 0 ∧ w.Addressed 6 ∧ ¬ w.Addressed 5 ∧ (w.refresh 9).trusts 9 = true
    ∧ entry.baselines.find? (·.1 == 9) = some (9, 500) ∧ entry.baselines.find? (·.1 == 8) = none
    ∧ w.entry 4 = none ∧ (crowd w).tankAllot 3 = some { tankAllotStart 3 with peers := [drawnEntry 9 600 1] }
    ∧ ({ w with link := { w.link with presence := [⟨9, some 1, none, 0, false, true⟩] } } : State).trusts 9 = false :=
  ⟨good_sound (by decide), by decide⟩

/-- Peer 9's demand entry with an age. -/
def wPeerAged (age : Nat) : State :=
  { w with allot := [{ tankAllotStart 3 with peers := [{ drawnEntry 9 600 1 with ageMs := age }] }] }

theorem test_wit_PeerEntriesExpireAndDrawsRepeat_age : Good (wPeerAged 3000) ∧ Good (wPeerAged 2999)
    ∧ (wPeerAged 3000).allot.map (fun a => a.peers.map fun e => (e.station, e.cond, e.ageMs)) = [[(9, .live, 3000)]]
    ∧ [wPeerAged 2999, wPeerAged 3000].map (fun s => (after (.peerDemandExpiry 9 3) s).allot.map fun a =>
        a.peers.map fun e => (e.demand, e.cond)) = [[[(600, .live)]], [[(600, .expired)]]] :=
  ⟨good_sound (by decide), good_sound (by decide), by decide⟩

theorem test_wit_PeerEntriesExpireAndDrawsRepeat : Good wPeer ∧ (tankAllotStart 3).liveFrom 9 = false
    ∧ Good wFlow
    ∧ (wFlow.tankAllot 3).map (fun a => (a.timer.isSome, decide (0 < a.own))) = some (true, true)
    ∧ ({ tankAllotStart 3 with timer := some 1000 } : TankAllot).own = 0
    ∧ ({ tankAllotStart 3 with timer := some 1000 } : TankAllot).announcedDraw = entry.ownDraw :=
  ⟨good_sound (by decide), by decide, good_sound (by decide), by decide⟩

/-- The home tank's entry with another station as its home. -/
def remote : BookEntry := { entry with home := 9 }

/-- A station whose tank is another's. -/
def wRemote (s : State) : State := { s with book := [remote], homes := [] }

/-- P1 FLOWING with a run of priority 1. -/
def wLowClass : State :=
  wRemote { wFlow with points := { wFlow.points with p1 := { (wFlow.getPoint .p1) with run := some { run with priority := 1 } } } }

theorem test_wit_StockIsTakenAndGoesStale : Good (wRemote wFlow) ∧ Good wLowClass ∧ (wRemote wFlow).entry 3 = some remote ∧ remote.home = 9
    ∧ ((wRemote wFlow).refresh 9).trusts 9 = true ∧ (wRemote wFlow).tankOf .p1 = some 3 ∧ remote.mark = 7
    ∧ remote.cond = .current ∧ (wRemote wFlow).entry 4 = none ∧ entry.home ≠ 9
    ∧ remote.staleTimer.isSome = true ∧ (wLowClass.getPoint .p1).run.map (·.priority) = some 1
    ∧ (wLowClass.getPoint .p1).st.flows = true
    ∧ Good (wRemote { w with book := [] }) :=
  ⟨good_sound (by decide), good_sound (by decide), by decide, by decide, by decide, by decide, by decide, by decide,
    by decide, by decide, by decide, by decide, by decide, good_sound (by decide)⟩

/-- The home tank with its gauge. -/
def wGauge (g : Gauge) (f : StockFlags) : State :=
  { w with homes := [{ homeStart false 3 with gauge := g }], book := [{ entry with flags := f }] }

def gauge : Gauge := ⟨0, 0, some 500, 9800, 2000, 150, false, some 15000⟩

theorem test_wit_AcceptedSamplesArePublished_and_HeldAndRejectedSamplesAreCounted :
    (Good (wGauge gauge flags) ∧ Good (wGauge { gauge with rejected := 2 } flags)
      ∧ Good (wGauge gauge { flags with receiving := true }) ∧ Good (wGauge { gauge with held := 2 } flags)
      ∧ Good (wWindow .due none) ∧ Good w)
    ∧ ((550 : Int) - 500).natAbs ≤ 50 ∧ 50 < ((551 : Int) - 500).natAbs ∧ (w.homeCfg 1).map (·.jump) = some 50
    ∧ (w.homeAt 1).isSome = true ∧ w.productCfg entry.product = some ⟨.fuel, 830⟩ ∧ (homeStart false 3).tank = 3
    ∧ (wGauge gauge flags).homeAt 1 = some { homeStart false 3 with gauge := gauge } ∧ gauge.timer.isSome = true
    ∧ rising [(0, 0), (500, 9800), (1000, 21400)] = true :=
  ⟨⟨good_sound (by decide), good_sound (by decide), good_sound (by decide), good_sound (by decide), good_sound (by decide),
    good_sound (by decide)⟩, by decide⟩

/-- A DUE window, with some held samples before. -/
def wDueHeld (n : Nat) : State :=
  { wWindow .due none with homes := (wWindow .due none).homes.map fun h => { h with gauge := { gauge with held := n } } }

theorem test_wit_HeldAndRejectedSamplesAreCounted_due : Good (wDueHeld 2) ∧ Good (wDueHeld 1)
    ∧ ((wDueHeld 2).homeAt 1).map (fun h => (h.recon.window, satAdd 255 h.gauge.held 1)) = some (.due, 3)
    ∧ ((wDueHeld 1).homeAt 1).map (fun h => (h.recon.window, satAdd 255 h.gauge.held 1)) = some (.due, 2)
    ∧ entry.flags.gaugeFault = false
    ∧ (after (.gaugeTimerExpiry 1) (wDueHeld 2)).homes.map (·.recon.window) = [.noWindow]
    ∧ (after (.gaugeTimerExpiry 1) (wDueHeld 1)).homes.map (·.recon.window) = [.due] :=
  ⟨good_sound (by decide), good_sound (by decide), by decide⟩

/-- The home tank with its fill line and settle timer. -/
def wFill (active : Bool) (settle : Timer) (receiving : Bool) : State :=
  { w with
    homes := [{ homeStart active 3 with settle := settle }], book := [{ entry with flags := { flags with receiving := receiving } }] }

theorem test_wit_FillLineSetsReceiving :
    (Good (wFill false (some 60000) true) ∧ Good (wFill false none false) ∧ Good (wFill true none true)
      ∧ Good (wWindow .running (some 900000)))
    ∧ (wFill false (some 60000) true).homeAt 1 = some { homeStart false 3 with settle := some 60000 }
    ∧ (w.homeAt 1).map (·.fillActive) = some false ∧ ((wFill true none true).homeAt 1).map (·.fillActive) = some true
    ∧ (w.homeCfg 1).isSome = true :=
  ⟨⟨good_sound (by decide), good_sound (by decide), good_sound (by decide), good_sound (by decide)⟩, by decide⟩

/-- The home tank QUARANTINED, its water-bottom source as given. -/
def wWater (x : LineSource) (quarantined : Bool) : State :=
  { w with
    homes := [{ homeStart false 3 with water := x }], book := [{ entry with flags := { flags with quarantined := quarantined } }] }

theorem test_wit_UnlockTankFollowsItsTable :
    (Good (wWater ⟨false, 0, true⟩ true) ∧ Good (wWater ⟨true, 0, true⟩ true) ∧ Good (wRemote w))
    ∧ (wRemote w).homeOf 3 = none ∧ w.homeOf 16 = none ∧ w.homeOf 1 = none ∧ (w.homeOf 3).isSome = true
    ∧ entry.flags.quarantined = false :=
  ⟨⟨good_sound (by decide), good_sound (by decide), good_sound (by decide)⟩, by decide⟩

/-- A window DUE with a LOSS source and counts before it. -/
def wDue (loss : Bool) (f : StockFlags) : State :=
  { wWindow .due none with
    homes := (wWindow .due none).homes.map fun h => { h with lossWet := loss }, book := [{ entry with flags := f }] }

theorem test_wit_WindowsComeDueAndClose :
    (Good (wWindow .running (some 900000)) ∧ Good (wWindow .due none) ∧ Good (wDue true flags)
      ∧ Good (wDue false { flags with receiving := true })
      ∧ Good { wWindow .running (some 1) with book := [{ entry with flags := { flags with gaugeFault := true } }] })
    ∧ (((wWindow .running (some 900000)).homeAt 1).map fun h => (h.recon.window, h.recon.length.isSome))
      = some (.running, true)
    ∧ ((wWindow .due none).homeAt 1).map (fun h => (h.recon.window, h.gauge.lastLevel)) = some (.due, none) :=
  ⟨⟨good_sound (by decide), good_sound (by decide), good_sound (by decide), good_sound (by decide),
    good_sound (by decide)⟩, by decide⟩

/-! #### Accounts, zones, the log and the link -/

/-- A seek with a candidate. -/
def wCandidate : State :=
  { wSeek with accounts := ⟨[⟨acc, 0⟩], [⟨⟨12, 3, 9⟩, [.p1], 77, some ({ acc with tag := ⟨12, 3, 9⟩ }, 9), 250⟩]⟩ }

theorem test_wit_EditNumbersCompareWithWrapping : Good w ∧ w.account tag = some ⟨acc, 0⟩ ∧ w.seekFor tag = none
    ∧ ((33080 : Word16).toNat + 65536 - acc.edit.toNat) % 65536 = 32768 ∧ Good wCandidate
    ∧ (wCandidate.seekFor ⟨12, 3, 9⟩).map (fun k => k.candidate.isSome) = some true :=
  ⟨good_sound (by decide), by decide, by decide, by decide, good_sound (by decide), by decide⟩

theorem test_wit_AccountsAreJudgedAndSeeksAnswered : w.FromPeer 9 ∧ w.Addressed 0 ∧ (w.refresh 9).trusts 9 = true ∧ soundAccount acc = true
    ∧ (wSeek.seekFor ⟨12, 3, 9⟩).isSome = true ∧ supersedes { acc with edit := 313 } acc = true ∧ supersedes acc acc = false
    ∧ w.account ⟨12, 3, 9⟩ = none ∧ w.seekFor ⟨12, 3, 9⟩ = none ∧ w.account tag = some ⟨acc, 0⟩ ∧ w.link.queue = []
    ∧ soundAccount { acc with burnCount := 1 } = false := by decide

/-- A copy of the held record waits in the queue. -/
def wCopy : State := { w with link := { w.link with queue := [newSlot ⟨0, .account acc⟩ false] } }

theorem test_wit_AccountsAreJudgedAndSeeksAnswered_copy : Good wCopy ∧ wCopy.account tag = some ⟨acc, 0⟩
    ∧ (after (.seek 9 0 tag) wCopy).link.queue.length = 1 ∧ (after (.seek 9 0 tag) w).link.queue.length = 1 :=
  ⟨good_sound (by decide), by decide⟩

theorem test_wit_SeekWindowDecidesTheWaitingPoints : Good wSeek ∧ Good wCandidate ∧ wSeek.account ⟨12, 3, 9⟩ = none
    ∧ wSeek.seekFor ⟨12, 3, 9⟩ = some ⟨⟨12, 3, 9⟩, [.p1], 77, none, 250⟩
    ∧ (wSeek.getPoint .p1).openReq = some ⟨9, ⟨12, 3, 9⟩, 150, none, 77⟩ ∧ wSeek.pointCfg .p1 = some point
    ∧ (wSeek.productCfg 1).isSome = true ∧ (wSeek.classCfg 12).isSome = true :=
  ⟨good_sound (by decide), good_sound (by decide), by decide⟩

theorem test_wit_SeekWindowDecidesTheWaitingPoints_terms :
    leastTerm 150 300 (wSeek.reserveTerm 3 2) (wSeek.allowanceTerm ⟨2, 6, 0⟩ .fuel ⟨12, 3, 9⟩ (freshAccount ⟨12, 3, 9⟩ 77))
      = (.requested, 150)
    ∧ Good { wSeek with book := wLow.book }
    ∧ leastTerm 150 300 (({ wSeek with book := wLow.book } : State).reserveTerm 3 2)
      (wSeek.allowanceTerm ⟨2, 6, 0⟩ .fuel ⟨12, 3, 9⟩ (freshAccount ⟨12, 3, 9⟩ 77)) = (.reserve, 0) :=
  ⟨by decide, good_sound (by decide), by decide⟩

theorem test_wit_CloseUpdateFollowsTheRules : (closeRecord 6 { run with hours := some 1200 } 50 { acc with hoursLast := some 1000 }).verdict
      = .accepted
    ∧ (closeRecord 6 { run with hours := some 3000 } 50 { acc with hoursLast := some 1000 }).verdict = .accepted
    ∧ (closeRecord 6 { run with hours := some 3001 } 50 { acc with hoursLast := some 1000 }).verdict = .longGap
    ∧ (closeRecord 6 { run with hours := some 1010 } 500
        { acc with hoursLast := some 1000, burnAvg := some 10, burnCount := 4 }).acc.anomaly = true
    ∧ (closeRecord 6 { run with hours := some 1010 } 500
        { acc with hoursLast := some 1000, burnAvg := some 10, burnCount := 3 }).acc.burnCount = 4 := by decide

/-- A point FLOWING and spill line 1 WET already. -/
def wLineWet : State := { w with spill := { w.spill with lines := modNth1 w.spill.lines 1 fun _ => ⟨true, 0, true⟩ } }

theorem test_wit_SpillLineSamplesAreFilteredAndTrip : Good wFlow ∧ Good wLineWet ∧ wFlow.lineCfg 1 = some ⟨.sump, 2, .wetHigh, 1, 1⟩
    ∧ nth1 wFlow.spill.lines 1 = some ⟨false, 0, false⟩ ∧ nth1 wLineWet.spill.lines 1 = some ⟨true, 0, true⟩ :=
  ⟨good_sound (by decide), good_sound (by decide), by decide⟩

theorem test_wit_WaterBottomSamplesQuarantineAndTrip : Good wFlow ∧ wFlow.waterCfg 1 = some ⟨.water, 2, .wetHigh, 1, 1⟩
    ∧ (wFlow.homeAt 1).map (·.water) = some ⟨false, 0, false⟩ ∧ wFlow.tankOf .p1 = some 3
    ∧ Good (wWater ⟨true, 0, true⟩ true) := ⟨good_sound (by decide), by decide, by decide, by decide, good_sound (by decide)⟩

/-- Zone 2 ECHOED, P1 LOCKED for it and P2 for a fault too. -/
def wEcho : State :=
  { w with
    points :=
      { w.points with
        p1 := { Point.reset with st := .locked, lockCause := .zone }
        p2 := { Point.reset with st := .locked, lockCause := .zone, faultHose := true } }
    spill := { w.spill with zones := [zoneStart 0, ⟨2, .echoed, none, none, some 9, 0⟩], beacon := true } }

/-- Zone 2 TRIPPED by spill line 1, which is WET. -/
def wWet : State := { wTrip with spill := { wTrip.spill with lines := modNth1 w.spill.lines 1 fun _ => ⟨true, 0, true⟩ } }

theorem test_wit_RepeatTimerAndSpillReceived : Good wTrip ∧ wTrip.zoneRec 2 = some ⟨2, .tripped, some (.sump, 1), some 2000, none, 0⟩
    ∧ Good wFlow ∧ (wFlow.zoneRec 2).map (·.st) = some .clear ∧ wFlow.toldOf 2 .p1 = true ∧ wFlow.zoneRec 3 = none
    ∧ wFlow.FromPeer 9 ∧ wFlow.Addressed 0 :=
  ⟨good_sound (by decide), by decide, good_sound (by decide), by decide⟩

theorem test_wit_RepeatTimerAndSpillReceived_index :
    ([(.sump, 12), (.sump, 13), (.water, 4), (.water, 5), (.hose, 6), (.hose, 7), (.loss, 16), (.loss, 17), (.film, 0)] :
      List (SourceKind × Nat)).map (fun x => ((after (.spill 9 0 2 x.1 x.2) w).zoneRec 2).map (·.st))
      = [some .echoed, some .clear, some .echoed, some .clear, some .echoed, some .clear, some .echoed, some .clear,
        some .clear] := by decide

theorem test_wit_AllclearClearsADryZone : (Good wEcho ∧ Good wTrip ∧ Good wWet ∧ Good w)
    ∧ (wEcho.zoneRec 2).map (·.st) = some .echoed ∧ (wTrip.zoneRec 2).map (·.st) = some .tripped
    ∧ (∀ x ∈ wTrip.localSources 2, x.wet = false) ∧ ((wWet.localSources 2).find? (·.wet)).isSome = true
    ∧ (w.zoneRec 2).map (·.st) = some .clear :=
  ⟨⟨good_sound (by decide), good_sound (by decide), good_sound (by decide), good_sound (by decide)⟩, by decide⟩

theorem test_wit_LogNumbersFollowR155 : (wLoading 6).loader.phase = .loading ∧ logAge 1 4294967295 = 1
    ∧ logAge 4 3 ≤ 3 ∧ logAge 4 4 = 0 ∧ logAge 5 1 = 4 ∧ logAge 1 2147483648 = 2147483648
    ∧ logAge 1 2147483649 = 2147483647 := by decide

/-- A station with one delivery record. -/
def wLog : State := after (.hangUp .p1) wFlow

theorem test_wit_CollectAndConfirm : Good wLog ∧ wLog.FromPeer 9 ∧ wLog.Named 6 ∧ wLog.link.queue.length < 8
    ∧ wLog.log.records.map (·.entry.number) = [1] ∧ logPlace wLog.log.next wLog.log.records.length 1 = .held
    ∧ logPlace wLog.log.next wLog.log.records.length 2 = .newer
    ∧ logPlace wLog.log.next wLog.log.records.length 4294967295 = .older ∧ w.log.records = [] :=
  ⟨good_sound (by decide), by decide⟩

/-- A collection in hand, its BATCH waiting or on the line. -/
def wBatch (onLine last : Bool) : State :=
  { wLog with
    log := { wLog.log with collection := some ⟨9, 1, 2, 2, true⟩ }
    link :=
      { wLog.link with
        queue := [{ newSlot ⟨9, .batch 1 last 1 1 none⟩ true with onLine := onLine, attempts := 15 }]
        attempt := if onLine then some ⟨[9], false⟩ else none } }

theorem test_wit_CollectAndConfirm_inHand : (∀ o l, (wBatch o l).Ready ∧ (wBatch o l).own ≠ 0
      ∧ (wBatch o l).loader.restartList = [] ∧ (wBatch o l).link.queue.map (fun x => (x.ofCollection, x.onLine)) = [(true, o)])
    ∧ 16 ≤ satAdd 255 15 1 ∧ logPlace wLog.log.next wLog.log.records.length 1 = .held
    ∧ (wLog.log.records.find? fun r => r.entry.number == 1).isSome = true
    ∧ (after .frameSent (wBatch true true)).log.collection = none
    ∧ ((after .attemptBroken (wBatch true false)).log.collection.map (·.part)) = some 3
    ∧ (after (.collect 2 6 0 1) (wBatch true false)).link.queue.map (fun x => (x.withdrawn, x.ofCollection))
      = [(true, false), (false, true)]
    ∧ (after (.collect 2 6 0 1) (wBatch false false)).link.queue.map (fun x => x.frame.target) = [2] := by decide

/-- A full transmit queue: seven zones' SPILLs and a DRAW. -/
def fullQueue (onLine : Bool) : List Slot :=
  ([0, 1, 2, 3, 4, 5, 6].map fun z => { newSlot ⟨0, .spill z .film 1⟩ false with onLine := onLine })
    ++ [{ newSlot ⟨0, .draw 3 0 0 0⟩ false with onLine := onLine }]

theorem test_wit_FramesArePlacedByR171 : (fullQueue false).length = 8 ∧ (∀ x ∈ fullQueue true, x.onLine = true)
    ∧ (fullQueue false).any (fun x => x.frame.body.subject == (Body.draw 3 5 1 0).subject) = true
    ∧ (fullQueue false).any (fun x => x.frame.body.subject == (Body.draw 4 5 1 0).subject) = false
    ∧ Good w :=
  ⟨by decide, by decide, by decide, by decide, good_sound (by decide)⟩

theorem test_wit_FramesArePlacedByR171_silent : State.Ready { w with loader := { w.loader with strap := 0 } }
    ∧ ({ w with loader := { w.loader with strap := 0 } } : State).own = 0 := by decide

theorem test_wit_PresenceTableFollowsItsRules : w.FromPeer 9 ∧ w.Addressed 0 ∧ (w.refresh 9).peer 9 = some ⟨9, some 0x1234, some 100, 0, false, false⟩
    ∧ (w.peer 9).map (·.absent) = some false ∧ w.peer 8 = none ∧ (99 : Nat) < 100 ∧ (0 : Word32) ≠ w.loader.fingerprint := by
  decide

/-- Peer 9 with an age and a mark of absence. -/
def wAged (age : Nat) (absent : Bool) : State :=
  { w with link := { w.link with presence := [⟨9, some 0x1234, some 100, age, absent, false⟩] } }

theorem test_wit_PresenceTableFollowsItsRules_absence : (Good (wAged 15000 false) ∧ Good (wAged 15000 true) ∧ Good (wAged 14999 false))
    ∧ ((wAged 15000 false).peer 9).map (fun e => (e.absent, e.ageMs)) = some (false, 15000)
    ∧ ((wAged 15000 true).peer 9).map (·.absent) = some true ∧ ((wAged 14999 false).peer 9).map (·.ageMs) = some 14999
    ∧ w.peer 8 = none ∧ (256 : Nat) ≤ 256 ∧ (256 : Nat) < 257
    ∧ (after (.peerAbsence 9) (wAged 15000 false)).peer 9 = some ⟨9, some 0x1234, some 100, 15000, true, false⟩ :=
  ⟨⟨good_sound (by decide), good_sound (by decide), good_sound (by decide)⟩, by decide⟩

/-- A station with a DRAW on the line, a newer one behind it. -/
def wSending (pending : Option Frame) (withdrawn : Bool) (attempts : Nat) : State :=
  { w with
    link :=
      { w.link with
        queue := [{ newSlot ⟨0, .draw 3 0 0 0⟩ false with
          onLine := true, pending := pending, withdrawn := withdrawn, attempts := attempts, seq := some 3 }]
        attempt := some ⟨[9], false⟩ } }

theorem test_wit_AttemptsFollowTheQueue :
    (Good (wSending none false 15) ∧ Good (wSending (some ⟨0, .draw 3 5 1 0⟩) false 0) ∧ Good (wSending none true 0)
      ∧ Good (after .presenceTimerExpiry w))
    ∧ (after .presenceTimerExpiry w).link.queue.length = 1 ∧ (after .presenceTimerExpiry w).link.attempt = none
    ∧ (wSending none false 15).link.attempt = some ⟨[9], false⟩ ∧ (wSending none false 15).link.queue.map (·.onLine) = [true] :=
  ⟨⟨good_sound (by decide), good_sound (by decide), good_sound (by decide), good_sound (by decide)⟩, by decide⟩

theorem test_wit_AsksAreAnsweredByTells : w.FromPeer 9 ∧ w.Named 6 ∧ w.entry 3 = some entry ∧ w.homeOf 3 = some (homeStart false 3)
    ∧ (wRemote w).homeOf 3 = none ∧ w.entry 4 = none ∧ w.zoneRec 2 = some (zoneStart 2) ∧ w.zoneRec 3 = none
    ∧ (w.tankCfg 3).isSome = true ∧ w.allot = [tankAllotStart 3] ∧ w.allot ≠ [] ∧ ({ w with allot := [] } : State).allot = []
    ∧ pointOf 0 = none ∧ pointOf 7 = none := by decide

theorem test_wit_FramesHeardRunTheirCommand : parseFrame [9, 0, 13] = none
    ∧ parseFrame (frameBytes 9 1 ⟨0, .spill 2 .film 1⟩) = some ⟨13, 9, 0, (Body.spill 2 .film 1).bytes⟩
    ∧ heardCommand ⟨13, 9, 0, (Body.spill 2 .film 1).bytes⟩ = some (.spill 9 0 2 .film 1)
    ∧ heardCommand ⟨13, 9, 0, [9, 9, 9]⟩ = none := by decide +kernel

theorem test_wit_FramesSentAreHeardAsSent : (Body.spill 255 .film 255).bytes.length ≤ 60 ∧ (Body.account acc).bytes.length ≤ 60
    ∧ tag.cls ≤ 63 ∧ tag.fleet ≤ 15 ∧ tag.unit ≤ 16383 ∧ (⟨63, 15, 16383⟩ : Tag).unit ≤ 16383 ∧ acc.origin ≤ 255
    ∧ (acc.hoursLast.all fun h => decide (h < max32)) = true ∧ acc.unbooked ≤ max32
    ∧ (acc.burnAvg.all fun b => decide (b ≤ max32)) = true ∧ acc.burnCount ≤ 255 ∧ acc.shift ≤ 65535
    ∧ acc.takenFuel ≤ max32 ∧ acc.takenFluid ≤ max32 := by decide

end Sys2Proof.Tests
end

section
/-! PROOF SUPPORT. What is queued and booked at a run's end: frames at a plain station, the accounts, the newest delivery
record (R49, steps 3 to 5). -/
namespace Sys2Proof.Machine

/-! ### Frames at a plain station (R171) -/

/-- A frame without a replacement subject joins the tail of a queue with room. -/
theorem place_append {q : List Slot} {f : Frame} (c : Bool) (hf : f.body.subject = none) (hq : q.length < Config.queueSlots) :
    place q f c = (q ++ [newSlot f c], none) := by
  have hs : q.any (Slot.sameSubject f.body) = false := by simp [Slot.sameSubject, hf]
  unfold place
  rw [if_neg (by simp [hs]), if_pos hq]

/-- The queue grows by at most one slot. -/
theorem place_length_le (q : List Slot) (f : Frame) (c : Bool) : (place q f c).1.length ≤ q.length + 1 := by
  unfold place
  split
  · simp
  · split
    · simp
    · split
      · split
        · simpa using (dropVictim_sublist _ q).length_le
        · simp
      · simp

/-- An operation that leaves the marks, the loader and the collection in hand leaves a station plain. -/
theorem State.Plain.of_eq {s t : State} (h : s.Plain) (hm : t.marks = s.marks) (hl : t.loader = s.loader)
    (hc : t.log.collection = s.log.collection) : t.Plain where
  ready := ⟨by unfold State.up; rw [hl]; exact h.ready.1, hm.trans h.ready.2⟩
  sends := by unfold State.own; rw [hl]; exact h.sends
  list := by rw [hl]; exact h.list
  collection := hc.trans h.collection

theorem State.Plain.queueFrame_eq {s : State} (h : s.Plain) (f : Frame) :
    s.queueFrame f = s.setQueue (place s.link.queue f false).1 :=
  State.queueFrame_plain f s h.sends h.ready.2 h.list h.collection

theorem State.Plain.queueFrame {s : State} (h : s.Plain) (f : Frame) : (s.queueFrame f).Plain := by
  rw [h.queueFrame_eq]
  exact h.of_eq rfl rfl rfl

/-- A frame without a replacement subject joins the tail of a plain station's queue. -/
theorem State.Plain.queueFrame_append {s : State} (h : s.Plain) {f : Frame} (hf : f.body.subject = none)
    (hq : s.link.queue.length < Config.queueSlots) : (s.queueFrame f).link.queue = s.link.queue ++ [newSlot f false] := by
  rw [h.queueFrame_eq, place_append false hf hq]
  rfl

/-- With no handing due, an event's end clears the marks and nothing else. -/
theorem State.finish_of_not_due {s : State} (h : s.marks.handDue = false) : s.finish = s.setMarks .clear := by
  unfold State.finish
  rw [h]
  rfl

/-- An operation that leaves the books as they stand, and queues at most `n` frames at a plain station. -/
structure BooksKept (n : Nat) (s t : State) : Prop where
  accounts : t.accounts = s.accounts
  records : t.log.records = s.log.records
  next : t.log.next = s.log.next
  plain : s.Plain → t.Plain ∧ t.link.queue.length ≤ s.link.queue.length + n

namespace BooksKept

variable {m n : Nat} {s t u : State}

theorem trans (h : BooksKept m s t) (g : BooksKept n t u) : BooksKept (m + n) s u where
  accounts := g.accounts.trans h.accounts
  records := g.records.trans h.records
  next := g.next.trans h.next
  plain := fun k => by
    obtain ⟨ht, hlt⟩ := h.plain k
    obtain ⟨hu, hlu⟩ := g.plain ht
    exact ⟨hu, by omega⟩

theorem mono (h : BooksKept m s t) (hmn : m ≤ n) : BooksKept n s t :=
  { h with plain := fun k => ⟨(h.plain k).1, Nat.le_trans (h.plain k).2 (by omega)⟩ }

theorem of_eq (ha : t.accounts = s.accounts) (hlog : t.log = s.log) (hq : t.link.queue = s.link.queue)
    (hl : t.loader = s.loader) (hm : t.marks = s.marks) : BooksKept 0 s t where
  accounts := ha
  records := by rw [hlog]
  next := by rw [hlog]
  plain := fun h => ⟨h.of_eq hm hl (by rw [hlog]), by rw [hq]; exact Nat.le_refl _⟩

theorem refl (s : State) : BooksKept 0 s s := of_eq rfl rfl rfl rfl rfl

theorem modPoint (s : State) (p : PointId) (f : Point → Point) : BooksKept 0 s (s.modPoint p f) := of_eq rfl rfl rfl rfl rfl

theorem modAllot (s : State) (tank : Nat) (f : TankAllot → TankAllot) : BooksKept 0 s (s.modAllot tank f) :=
  of_eq rfl rfl rfl rfl rfl

theorem queueFrame (f : Frame) (s : State) : BooksKept 1 s (s.queueFrame f) where
  accounts := (State.queueFrame_requeues f s).accounts
  records := (State.queueFrame_requeues f s).records
  next := (State.queueFrame_requeues f s).nextLog
  plain := fun h => ⟨h.queueFrame f, by rw [h.queueFrame_eq]; exact place_length_le _ f false⟩

end BooksKept

namespace State

/-! ### R49, steps 1 and 2, and the recomputation: the books are not touched -/

theorem closeValve_booksKept (s : State) (p : PointId) : BooksKept 0 s (s.closeValve p) := by
  unfold closeValve
  split
  · exact .of_eq rfl rfl rfl rfl rfl
  · exact .refl s

theorem endFirst_booksKept (s : State) (p : PointId) : BooksKept 0 s (s.endFirst p) := by
  have h := (closeValve_booksKept s p).trans (.modPoint _ p fun x =>
    { x with prime := none, noLift := none, queue := none, hold := none, stall := none, progress := none, target := 0 })
  unfold endFirst
  dsimp only
  split
  · exact h.trans (.modAllot _ _ _)
  · exact h

theorem setTargets_booksKept (l : List (PointId × Nat)) (s : State) :
    BooksKept 0 s (l.foldl (fun s e => s.setTarget e.1 e.2) s) := by
  induction l generalizing s with
  | nil => exact .refl s
  | cons a l ih => exact (BooksKept.modPoint s a.1 _).trans (ih _)

theorem queueDraw_booksKept (s : State) (tank : Nat) : BooksKept 1 s (s.queueDraw tank) := by
  unfold queueDraw
  split
  · exact (BooksKept.modAllot s tank _).trans (.queueFrame _ _)
  · exact (BooksKept.refl s).mono (by omega)

/-- Sharing the capacity queues one DRAW at most (R67, R73). -/
theorem allotShares_booksKept (s : State) (tank : Nat) : BooksKept 1 s (s.allotShares tank) := by
  have h : BooksKept 0 s (((s.targets tank).foldl (fun s e => s.setTarget e.1 e.2) s).modAllot tank fun t =>
      { t with own := ((s.targets tank).map (·.2)).sum }) := (setTargets_booksKept _ s).trans (.modAllot _ _ _)
  unfold allotShares
  dsimp only
  split
  · split
    · exact h.trans (queueDraw_booksKept _ tank)
    · exact h.mono (by omega)
  · exact h.mono (by omega)

/-- With no point waiting, a recomputation shares the capacity and lets nobody in (R66, R67). -/
theorem recompute_of_waiting_nil {s : State} {tank : Nat} (h : s.waiting tank = []) :
    s.recompute tank = s.allotShares tank := by
  have hshort : ∀ t, openedShort s t tank = [] := fun t => by unfold openedShort; rw [h]; rfl
  unfold recompute
  rw [h]
  unfold recomputeLoop
  rw [h]
  dsimp only [List.length_nil]
  rw [hshort]
  rfl

/-! ### The close update and the CLOSE (R49, steps 3 to 5) -/

/-- A row found by `q` after a change that keeps it found. -/
theorem find_modWhere_found {α : Type} (q : α → Bool) (f : α → α) (l : List α)
    (h : ∀ c, l.find? q = some c → q (f c) = true) : (modWhere q f l).find? q = (l.find? q).map f := by
  induction l with
  | nil => rfl
  | cons a l ih =>
    cases ha : q a with
    | true =>
      have hfa : q (f a) = true := h a (by rw [List.find?_cons, ha])
      simp [modWhere_cons, ha, hfa]
    | false =>
      have hl : ∀ c, l.find? q = some c → q (f c) = true := fun c hc => h c (by rw [List.find?_cons, ha]; exact hc)
      simp [modWhere_cons, ha, ih hl]

theorem account_modAccount (s : State) (tag : Tag) (f : CacheRec → CacheRec)
    (h : ∀ c, s.account tag = some c → (f c).acc.tag = tag) : (s.modAccount tag f).account tag = (s.account tag).map f :=
  find_modWhere_found _ f s.accounts.cache fun c hc => by simpa using h c hc

/-- A record's recency does not change what is held (R116). -/
theorem account_touch (s : State) (tag : Tag) : (s.touch tag).account tag = s.account tag := by
  unfold touch
  split
  · next c hc =>
    rw [hc]
    have htag : (c.acc.tag == tag) = true := by simpa using account_tag hc
    show List.find? _ (c :: _) = _
    rw [List.find?_cons, htag]
  · rfl

theorem account_detach (s : State) (tag : Tag) :
    (s.detach tag).account tag = (s.account tag).map fun c => { c with attached := c.attached - 1 } :=
  account_modAccount s tag _ fun c hc => (account_tag hc : c.acc.tag = tag)

/-- The record written is the newest one, its number the next log number (R155). -/
theorem writeRecord_getLast (s : State) (d : DeliveryRec) :
    (s.writeRecord d).log.records.getLast? = some ⟨{ d with number := s.log.next }, false⟩ :=
  List.getLast?_concat

theorem fillRecord_getLast {s : State} {x : LogRec} (h : s.log.records.getLast? = some x) (f : DeliveryRec → DeliveryRec) :
    (s.fillRecord x.entry.number f).log.records.getLast? = some { x with entry := f x.entry } := by
  show (modWhere _ _ s.log.records).getLast? = _
  unfold modWhere
  rw [List.getLast?_map, h]
  simp

/-- The books after the close update of a held record, before its ACCOUNT is queued (R127 to R129). -/
def booked (s : State) (r : RunRec) (out : CloseOut) (number : Nat) : State :=
  ((s.modAccount r.tag fun c => { c with acc := out.acc }).touch r.tag).fillRecord number fun d =>
    { d with verdict := out.verdict, burnSample := out.sample, anomaly := out.acc.anomaly }

/-- The close update changes the cache's records and the log's records. -/
theorem booked_eq (s : State) (r : RunRec) (out : CloseOut) (number : Nat) : ∃ cache records,
    s.booked r out number = (s.setCache cache).setLog { s.log with records := records } := by
  unfold booked touch
  split <;> exact ⟨_, _, rfl⟩

theorem booked_account {s : State} {r : RunRec} {c : CacheRec} (h : s.account r.tag = some c) {out : CloseOut}
    (ho : out.acc.tag = r.tag) (number : Nat) : (s.booked r out number).account r.tag = some ⟨out.acc, c.attached⟩ := by
  show ((s.modAccount r.tag _).touch r.tag).account r.tag = _
  rw [account_touch, account_modAccount _ _ _ fun _ _ => ho, h]
  rfl

theorem touch_log (s : State) (tag : Tag) : (s.touch tag).log = s.log := by
  unfold touch
  split <;> rfl

theorem booked_getLast {s : State} {x : LogRec} (h : s.log.records.getLast? = some x) (r : RunRec) (out : CloseOut) :
    (s.booked r out x.entry.number).log.records.getLast? = some { x with entry :=
      { x.entry with verdict := out.verdict, burnSample := out.sample, anomaly := out.acc.anomaly } } :=
  fillRecord_getLast (by rw [touch_log]; exact h) _

/-- A run's delivery record is written and its account's close update made (R49, steps 3 and 4). -/
def accountClosed (s : State) (p : PointId) (r : RunRec) (reason : EndReason) : State :=
  (s.writeRecord (s.deliveryRecord p r reason)).closeAccount r (s.getChan p).runStd s.log.next

/-- The delivery record of an ended run, with what the close update fills in (R128, R154). -/
def finalRecord (s : State) (p : PointId) (r : RunRec) (reason : EndReason) : DeliveryRec :=
  match s.account r.tag with
  | some c =>
    let out := closeRecord s.own r (s.getChan p).runStd c.acc
    { s.deliveryRecord p r reason with verdict := out.verdict, burnSample := out.sample, anomaly := out.acc.anomaly }
  | none => s.deliveryRecord p r reason

theorem accountClosed_of_unheld {s : State} {r : RunRec} (h : s.account r.tag = none) (p : PointId) (reason : EndReason) :
    s.accountClosed p r reason = s.writeRecord (s.deliveryRecord p r reason) := by
  have hw : (s.writeRecord (s.deliveryRecord p r reason)).account r.tag = none := h
  unfold accountClosed closeAccount
  rw [hw]

theorem finalRecord_of_unheld {s : State} {r : RunRec} (h : s.account r.tag = none) (p : PointId) (reason : EndReason) :
    s.finalRecord p r reason = s.deliveryRecord p r reason := by
  unfold finalRecord
  rw [h]

section
variable {s : State} {p : PointId} {r : RunRec} {c : CacheRec} {out : CloseOut} (h : s.account r.tag = some c)
  (ho : closeRecord s.own r (s.getChan p).runStd c.acc = out)
include h ho

theorem accountClosed_of_held (reason : EndReason) : s.accountClosed p r reason
    = ((s.writeRecord (s.deliveryRecord p r reason)).booked r out s.log.next).queueFrame ⟨0, .account out.acc⟩ := by
  have hw : (s.writeRecord (s.deliveryRecord p r reason)).account r.tag = some c := h
  unfold accountClosed closeAccount
  rw [hw, ← ho]
  rfl

theorem finalRecord_of_held (reason : EndReason) : s.finalRecord p r reason
    = { s.deliveryRecord p r reason with verdict := out.verdict, burnSample := out.sample, anomaly := out.acc.anomaly } := by
  unfold finalRecord
  rw [h, ← ho]

theorem closeOut_tag : out.acc.tag = r.tag := by
  rw [← ho]
  exact (closeRecord_tag ..).trans (account_tag h)

end

/-- What the close update makes of the account, the newest record and the next log number. -/
structure AccountClosed (s t : State) (p : PointId) (r : RunRec) (reason : EndReason) : Prop where
  touched : ∃ a l, Requeues ((s.setAccounts a).setLog l) t
  account : t.account r.tag
    = (s.account r.tag).map fun c => ⟨(closeRecord s.own r (s.getChan p).runStd c.acc).acc, c.attached⟩
  record : t.log.records.getLast? = some ⟨s.finalRecord p r reason, false⟩
  next : t.log.next = nextLogNumber s.log.next

/-- A frame queued after the close update leaves the books as they are. -/
theorem AccountClosed.queueFrame {s t : State} {p : PointId} {r : RunRec} {reason : EndReason}
    (h : AccountClosed s t p r reason) (f : Frame) : AccountClosed s (t.queueFrame f) p r reason := by
  have hq := queueFrame_requeues f t
  obtain ⟨a, l, ht⟩ := h.touched
  exact ⟨⟨a, l, ht.trans hq⟩, (hq.account _).trans h.account, by rw [hq.records]; exact h.record,
    hq.nextLog.trans h.next⟩

theorem accountClosed_spec (s : State) (p : PointId) (r : RunRec) (reason : EndReason) :
    AccountClosed s (s.accountClosed p r reason) p r reason := by
  have hw : (s.writeRecord (s.deliveryRecord p r reason)).log.records.getLast?
      = some ⟨s.deliveryRecord p r reason, false⟩ := writeRecord_getLast s _
  cases h : s.account r.tag with
  | none =>
    rw [accountClosed_of_unheld h]
    refine ⟨⟨_, _, Requeues.refl _⟩, by rw [h]; exact h, ?_, rfl⟩
    rw [finalRecord_of_unheld h]
    exact hw
  | some c =>
    generalize ho : closeRecord s.own r (s.getChan p).runStd c.acc = out
    rw [accountClosed_of_held h ho]
    refine AccountClosed.queueFrame ?_ _
    obtain ⟨cache, records, hb⟩ := booked_eq (s.writeRecord (s.deliveryRecord p r reason)) r out s.log.next
    refine ⟨⟨_, _, by rw [hb]; exact Requeues.refl _⟩, ?_, ?_, by rw [hb]; rfl⟩
    · rw [h, Option.map_some, ho]
      exact booked_account (s := s.writeRecord (s.deliveryRecord p r reason)) h (closeOut_tag h ho) _
    · rw [finalRecord_of_held h ho]
      exact booked_getLast hw r out

/-- R49, steps 3 to 5: the record, the close update, and the CLOSE. -/
def closedOut (s : State) (p : PointId) (r : RunRec) (reason : EndReason) : State :=
  (s.accountClosed p r reason).queueFrame ⟨r.terminal, .close (closeBody p (s.finalRecord p r reason))⟩

theorem closedOut_spec (s : State) (p : PointId) (r : RunRec) (reason : EndReason) :
    AccountClosed s (s.closedOut p r reason) p r reason := (accountClosed_spec s p r reason).queueFrame _

/-- At a plain station the ACCOUNT of a held record joins the tail of a queue with room. -/
theorem accountClosed_plain {s : State} (h : s.Plain) (hq : s.link.queue.length < Config.queueSlots) (p : PointId)
    (r : RunRec) (reason : EndReason) : (s.accountClosed p r reason).Plain
      ∧ (s.accountClosed p r reason).link.queue = s.link.queue ++ (s.account r.tag).toList.map fun c =>
        newSlot ⟨0, .account (closeRecord s.own r (s.getChan p).runStd c.acc).acc⟩ false := by
  have hw : (s.writeRecord (s.deliveryRecord p r reason)).Plain := h.of_eq rfl rfl rfl
  cases ha : s.account r.tag with
  | none =>
    rw [accountClosed_of_unheld ha]
    exact ⟨hw, (List.append_nil _).symm⟩
  | some c =>
    generalize ho : closeRecord s.own r (s.getChan p).runStd c.acc = out
    obtain ⟨cache, records, hb⟩ := booked_eq (s.writeRecord (s.deliveryRecord p r reason)) r out s.log.next
    rw [accountClosed_of_held ha ho, hb]
    have hp : (((s.writeRecord (s.deliveryRecord p r reason)).setCache cache).setLog
        { (s.writeRecord (s.deliveryRecord p r reason)).log with records := records }).Plain := hw.of_eq rfl rfl rfl
    refine ⟨hp.queueFrame _, (hp.queueFrame_append rfl hq).trans ?_⟩
    simp only [Option.toList_some, List.map_cons, List.map_nil, ho]
    rfl

/-- At a plain station with room for both, the ACCOUNT of a held record and the CLOSE join the queue's tail. -/
theorem closedOut_plain {s : State} (h : s.Plain) (hq : s.link.queue.length ≤ 6) (p : PointId) (r : RunRec)
    (reason : EndReason) : (s.closedOut p r reason).Plain
      ∧ (s.closedOut p r reason).link.queue = s.link.queue ++ ((s.account r.tag).toList.map fun c =>
          newSlot ⟨0, .account (closeRecord s.own r (s.getChan p).runStd c.acc).acc⟩ false)
        ++ [newSlot ⟨r.terminal, .close (closeBody p (s.finalRecord p r reason))⟩ false] := by
  have hslots : Config.queueSlots = 8 := rfl
  obtain ⟨hp, hacc⟩ := accountClosed_plain h (by omega) p r reason
  have hlen : (s.accountClosed p r reason).link.queue.length ≤ s.link.queue.length + 1 := by
    rw [hacc, List.length_append, List.length_map]
    cases s.account r.tag <;> simp
  refine ⟨hp.queueFrame _, ?_⟩
  rw [← hacc]
  exact hp.queueFrame_append rfl (by omega)

end State

end Sys2Proof.Machine
end

section
/-! PROOF SUPPORT. A run's end (R49, R50) as one equation, and from it `RunEnded` and `LeftByEnd` for every reason that
leaves the pump. -/
namespace Sys2Proof.Machine

/-- The reasons of R50's first row: the pump is left as it was. -/
def keepsPump : EndReason → Bool
  | .preset | .hangup | .noLift | .noCapacity | .holdExpired | .cancel | .stall | .reserve => true
  | .quarantine | .spill | .meter | .hose | .restart => false

/-- The FAULTED summary by the list of R55. -/
theorem faultedSummary_eq (dropout tempHeld : Bool) (reason : EndReason) : faultedSummary dropout tempHeld reason
    = (dropout || tempHeld || decide (reason ∈ [EndReason.stall, .meter, .hose, .spill, .quarantine])) := by
  rw [Bool.eq_iff_iff]
  simp [faultedSummary, or_assoc]

/-- A point after R49, steps 1 and 2: valve closed, the timers of the run state stopped, target 0. -/
def Point.stopped (x : Point) : Point :=
  { x with
    valve := none, prime := none, noLift := none, queue := none, hold := none, stall := none, progress := none, target := 0 }

/-- A point without its run record (R49, step 6). -/
def Point.unrun (x : Point) : Point := { x with run := none }

namespace State

theorem setPoint_setPoint (s : State) (p : PointId) (x y : Point) : (s.setPoint p x).setPoint p y = s.setPoint p y := by
  unfold setPoint
  congr 1
  cases p <;> rfl

/-! ### R49, steps 1 and 2 -/

theorem getPoint_closeValve (s : State) (p : PointId) :
    (s.closeValve p).getPoint p = { s.getPoint p with valve := none } := by
  unfold closeValve
  split
  · simp only [getPoint_setHose, getPoint_modChan, getPoint_modPoint_same]
  · next h =>
    have hv : (s.getPoint p).valve = none := by simpa using h
    rw [← hv]

theorem getPoint_endFirst (s : State) (p : PointId) : (s.endFirst p).getPoint p = (s.getPoint p).stopped := by
  have h : ((s.closeValve p).modPoint p fun x =>
      { x with prime := none, noLift := none, queue := none, hold := none, stall := none, progress := none, target := 0 }).getPoint
        p = (s.getPoint p).stopped := by
    rw [getPoint_modPoint_same, getPoint_closeValve]
    rfl
  unfold endFirst
  dsimp only
  split <;> exact h

theorem allot_closeValve (s : State) (p : PointId) : (s.closeValve p).allot = s.allot := by
  unfold closeValve
  split <;> rfl

section
variable {s : State} {p : PointId} {r : RunRec} (hr : (s.getPoint p).run = some r)
include hr

theorem tankAllot_endFirst : (s.endFirst p).tankAllot r.tank = (s.tankAllot r.tank).map fun t =>
    { t with admitted := t.admitted.filter fun q => q != p, queue := t.queue.filter fun q => q != p } := by
  unfold endFirst
  rw [hr]
  dsimp only
  rw [tankAllot_modAllot]
  · unfold tankAllot
    rw [modPoint_allot, allot_closeValve]
  · intro _
    rfl

theorem admitted_endFirst : (s.endFirst p).admitted r.tank = (s.admitted r.tank).filter fun q => q != p := by
  unfold admitted
  rw [tankAllot_endFirst hr]
  cases s.tankAllot r.tank <;> rfl

theorem waiting_endFirst : (s.endFirst p).waiting r.tank = (s.waiting r.tank).filter fun q => q != p := by
  unfold waiting
  rw [tankAllot_endFirst hr]
  cases s.tankAllot r.tank <;> rfl

end

/-- R49, steps 1 and 2, with the recomputation where the point gives up an admission or its place in a queue. -/
def released (s : State) (p : PointId) (r : RunRec) : State :=
  if (s.getPoint p).st.allots || (s.getPoint p).st == .queued then (s.endFirst p).recompute r.tank else s.endFirst p

theorem released_keeps (s : State) (p : PointId) (r : RunRec) : RunKeeps s (s.released p r) :=
  RunKeeps.ite ((endFirst_keeps s p).trans (recompute_keeps _ _)) (endFirst_keeps s p)

section
variable {s : State} {p : PointId} {r : RunRec} (hr : (s.getPoint p).run = some r)
include hr

/-- The tank's recomputation does not reach the point that has left its lists (R67). -/
theorem released_aside : Aside p (s.endFirst p) (s.released p r) := by
  refine Aside.ite (recompute_aside _ _ ?_ ?_) (Aside.refl p _)
  · rw [admitted_endFirst hr]; simp
  · rw [waiting_endFirst hr]; simp

theorem getPoint_released : (s.released p r).getPoint p = (s.getPoint p).stopped :=
  (released_aside hr).point.trans (getPoint_endFirst s p)

theorem not_mem_lists_released : p ∉ (s.released p r).admitted r.tank ∧ p ∉ (s.released p r).waiting r.tank := by
  have h := released_aside hr
  refine ⟨fun k => ?_, fun k => ?_⟩
  · simpa [admitted_endFirst hr] using h.admitted r.tank k
  · simpa [waiting_endFirst hr] using h.waiting r.tank k

/-- With no other point waiting for the tank, no other run ends with it, and at most one DRAW is queued. -/
theorem released_booksKept (hw : ∀ q ∈ s.waiting r.tank, q = p) : BooksKept 1 s (s.released p r) := by
  have h := endFirst_booksKept s p
  have hnil : (s.endFirst p).waiting r.tank = [] := by
    rw [waiting_endFirst hr, List.filter_eq_nil_iff]
    intro q hq
    simp [hw q hq]
  unfold released
  split
  · rw [recompute_of_waiting_nil hnil]
    exact h.trans (allotShares_booksKept _ _)
  · exact h.mono (by omega)

theorem endRun_eq (reason : EndReason) : s.endRun p reason = (s.released p r).endSecond p reason := by
  unfold endRun
  dsimp only
  rw [hr]
  rfl

end

/-- What the close reads of the point's channel is as it stood (R49, step 3). -/
theorem getChan_released (s : State) (p : PointId) (r : RunRec) :
    ((s.released p r).getChan p).runGross = (s.getChan p).runGross
      ∧ ((s.released p r).getChan p).runStd = (s.getChan p).runStd
      ∧ ((s.released p r).getChan p).vcf = (s.getChan p).vcf := by
  have hsteady : ∀ c : Channel, c.runGross = c.steady.runGross ∧ c.runStd = c.steady.runStd ∧ c.vcf = c.steady.vcf :=
    fun _ => ⟨rfl, rfl, rfl⟩
  obtain ⟨hgross, hstd, hvcf⟩ := hsteady ((s.released p r).getChan p)
  rw [hgross, hstd, hvcf, (released_keeps s p r).chans p]
  exact ⟨rfl, rfl, rfl⟩

/-! ### R49, steps 6 and 7, and R50 -/

/-- A point after an end that leaves the pump as it was (R50, first row). -/
def lingered (s : State) (p : PointId) (x : Point) : Point :=
  if x.pump = true ∧ s.lingerMs p ≠ 0 then { x with st := .linger, linger := some (s.lingerMs p) }
  else { x with st := .idle, pump := false, guard := if x.pump = true then s.guardTime p else x.guard }

theorem lingered_of_linger {s : State} {p : PointId} {x : Point} (h : x.pump = true ∧ s.lingerMs p ≠ 0) :
    s.lingered p x = { x with st := .linger, linger := some (s.lingerMs p) } := if_pos h

theorem lingered_of_idle {s : State} {p : PointId} {x : Point} (h : ¬ (x.pump = true ∧ s.lingerMs p ≠ 0)) :
    s.lingered p x = { x with
      st := .idle, pump := false, guard := if x.pump = true then s.guardTime p else x.guard } := if_neg h

/-- R50 leaves what R49 has stopped. -/
theorem lingered_keeps (s : State) (p : PointId) (x : Point) : (s.lingered p x).run = x.run
    ∧ (s.lingered p x).valve = x.valve ∧ (s.lingered p x).target = x.target ∧ (s.lingered p x).prime = x.prime
    ∧ (s.lingered p x).noLift = x.noLift ∧ (s.lingered p x).queue = x.queue ∧ (s.lingered p x).hold = x.hold
    ∧ (s.lingered p x).stall = x.stall ∧ (s.lingered p x).progress = x.progress := by
  unfold lingered
  split <;> exact ⟨rfl, rfl, rfl, rfl, rfl, rfl, rfl, rfl, rfl⟩

theorem lingered_congr {s t : State} {p : PointId} (h : t.pointCfg p = s.pointCfg p) (x : Point) :
    t.lingered p x = s.lingered p x := by
  unfold lingered lingerMs guardTime
  rw [h]

/-- The linger timer runs from the configured linger time. -/
theorem endLinger_timer (s : State) (p : PointId) : s.endLinger p
    = if (s.getPoint p).pump && (startTimer (s.lingerMs p)).isSome then
        s.modPoint p fun x => { x with st := .linger, linger := startTimer (s.lingerMs p) }
      else (s.pumpOff p).modPoint p fun x => { x with st := .idle } := by
  unfold endLinger lingerMs
  cases s.pointCfg p <;> rfl

/-- R50, first row, as one change of the point. -/
theorem endLinger_eq (s : State) (p : PointId) : s.endLinger p = s.setPoint p (s.lingered p (s.getPoint p)) := by
  rw [endLinger_timer]
  unfold lingered
  cases hp : (s.getPoint p).pump with
  | false =>
    have hoff : s.pumpOff p = s := by unfold pumpOff; rw [hp]; rfl
    have hx : { s.getPoint p with st := .idle, pump := false } = { s.getPoint p with st := .idle } := by rw [← hp]
    simp [hoff, modPoint, hx]
  | true =>
    have hoff : s.pumpOff p = s.setPoint p { s.getPoint p with pump := false, guard := s.guardTime p } := by
      unfold pumpOff; rw [hp]; rfl
    by_cases hms : s.lingerMs p = 0
    · simp [hoff, hms, startTimer, modPoint, setPoint_setPoint]
    · simp [hp, hms, startTimer, modPoint]

theorem endState_of_keepsPump {reason : EndReason} (h : keepsPump reason = true) (s : State) (p : PointId) :
    s.endState p reason = s.endLinger p := by
  cases reason with
  | preset | hangup | noLift | noCapacity | holdExpired | cancel | stall | reserve => rfl
  | quarantine | spill | meter | hose | restart => cases h

/-- The mark of a tested run makes no handing due. -/
theorem noteEnded_eq (s : State) (p : PointId) (tank : Nat) (reason : EndReason) :
    ∃ m, s.noteEnded p tank reason = s.setMarks m ∧ m.handDue = s.marks.handDue := by
  unfold noteEnded
  split
  · exact ⟨_, rfl, rfl⟩
  · exact ⟨s.marks, rfl, rfl⟩

/-- R49, steps 3 to 7, for a reason that leaves the pump: the books, the mark, the detachment, and the point. -/
theorem endSecond_eq {s : State} {p : PointId} {r : RunRec} (hr : (s.getPoint p).run = some r) {reason : EndReason}
    (hk : keepsPump reason = true) : ∃ m, m.handDue = (s.closedOut p r reason).marks.handDue
      ∧ s.endSecond p reason = (((s.closedOut p r reason).setMarks m).detach r.tag).setPoint p
        (s.lingered p (s.getPoint p).unrun) := by
  obtain ⟨a, l, ht⟩ := (closedOut_spec s p r reason).touched
  obtain ⟨m, hm, hdue⟩ := noteEnded_eq (s.closedOut p r reason) p r.tank reason
  refine ⟨m, hdue, ?_⟩
  have hlast : (s.accountClosed p r reason).log.records.getLast? = some ⟨s.finalRecord p r reason, false⟩ :=
    (accountClosed_spec s p r reason).record
  have hsecond : s.endSecond p reason = ((((s.closedOut p r reason).noteEnded p r.tank reason).modPoint p
      Point.unrun).detach r.tag).endState p reason := by
    unfold endSecond
    rw [hr]
    show State.endState (State.detach (State.modPoint (State.noteEnded (State.queueFrame ⟨_, .close (closeBody p
      (match (s.accountClosed p r reason).log.records.getLast? with
        | some x => x.entry
        | none => s.deliveryRecord p r reason))⟩ (s.accountClosed p r reason)) _ _ _) _ _) _) _ _ = _
    rw [hlast]
    rfl
  have hpoint : (s.closedOut p r reason).getPoint p = s.getPoint p := ht.getPoint p
  have hcfg : (s.closedOut p r reason).pointCfg p = s.pointCfg p := by unfold pointCfg; rw [ht.cfg]; rfl
  rw [hsecond, hm, endState_of_keepsPump hk, endLinger_eq]
  show ((((s.closedOut p r reason).setMarks m).detach r.tag).setPoint p _).setPoint p ((s.closedOut p r reason).lingered p
    ((((s.closedOut p r reason).setMarks m).modPoint p Point.unrun).getPoint p)) = _
  rw [setPoint_setPoint, lingered_congr hcfg, getPoint_modPoint_same, getPoint_setMarks, hpoint]

/-! ### The run's end -/

/-- The close update fills in the verdict, the sample and BURN_ANOMALY, and nothing else (R154). -/
theorem finalRecord_eq (s : State) (p : PointId) (r : RunRec) (reason : EndReason) : ∃ verdict sample anomaly,
    s.finalRecord p r reason
      = { s.deliveryRecord p r reason with verdict := verdict, burnSample := sample, anomaly := anomaly } := by
  unfold finalRecord
  split <;> exact ⟨_, _, _, rfl⟩

/-- R49 and R50 at a glance: from the released state the books are closed, and the point changes once. -/
theorem endRun_finish {s : State} {p : PointId} {r : RunRec} (hr : (s.getPoint p).run = some r) {reason : EndReason}
    (hk : keepsPump reason = true) :
    Requeues ((((s.released p r).closedOut p r reason).detach r.tag).setPoint p
        (s.lingered p (s.getPoint p).stopped.unrun)) (s.endRun p reason).finish
      ∧ (((s.released p r).closedOut p r reason).marks.handDue = false →
        (s.endRun p reason).finish.link = ((s.released p r).closedOut p r reason).link) := by
  have hpoint := getPoint_released hr
  have hrun : ((s.released p r).getPoint p).run = some r := by rw [hpoint]; exact hr
  obtain ⟨m, hdue, he⟩ := endSecond_eq hrun hk
  rw [endRun_eq hr, he, lingered_congr ((released_keeps s p r).pointCfg p), hpoint]
  refine ⟨?_, fun h => ?_⟩
  · have hm := Requeues.setMarks ((((s.released p r).closedOut p r reason).detach r.tag).setPoint p
      (s.lingered p (s.getPoint p).stopped.unrun)) m
    exact hm.trans (finish_requeues _)
  · rw [finish_of_not_due (hdue.trans h)]
    rfl

end State

section
variable {s : State} {p : PointId} {r : RunRec} (hr : (s.getPoint p).run = some r) {reason : EndReason}
  (hk : keepsPump reason = true)
include hr hk

theorem State.getPoint_endRun : (s.endRun p reason).finish.getPoint p
    = s.lingered p (s.getPoint p).stopped.unrun := by
  rw [(State.endRun_finish hr hk).1.getPoint, State.getPoint_setPoint_same]

/-- R50, first row. -/
theorem State.endRun_left : LeftByEnd s (s.endRun p reason).finish p := by
  unfold LeftByEnd
  rw [State.getPoint_endRun hr hk]
  split
  · next h =>
    rw [State.lingered_of_linger (x := (s.getPoint p).stopped.unrun) h]
    exact ⟨rfl, h.1, rfl⟩
  · next h =>
    rw [State.lingered_of_idle (x := (s.getPoint p).stopped.unrun) h]
    exact ⟨rfl, rfl, fun h => if_pos h⟩

theorem State.getLast_endRun : (s.endRun p reason).finish.log.records.getLast?
    = some ⟨(s.released p r).finalRecord p r reason, false⟩ := by
  rw [(State.endRun_finish hr hk).1.records]
  exact (State.closedOut_spec _ p r reason).record

/-- The point has left its tank's lists (R49, step 2). -/
theorem State.not_mem_lists_endRun :
    p ∉ (s.endRun p reason).finish.admitted r.tank ∧ p ∉ (s.endRun p reason).finish.waiting r.tank := by
  obtain ⟨a, l, ht⟩ := (State.closedOut_spec (s.released p r) p r reason).touched
  have hallot : (s.endRun p reason).finish.allot = (s.released p r).allot :=
    (State.endRun_finish hr hk).1.allot.trans ht.allot
  have h := State.not_mem_lists_released hr
  unfold State.admitted State.waiting State.tankAllot at h ⊢
  rw [hallot]
  exact h

/-- The delivery record of the ended run holds the run's items (R154). -/
theorem State.record_endRun : ∃ x, (s.endRun p reason).finish.log.records.getLast? = some x ∧ x.collected = false
    ∧ x.entry.run = r.number ∧ x.entry.point = p
    ∧ x.entry.reason = reason ∧ x.entry.tag = r.tag ∧ x.entry.terminal = r.terminal ∧ x.entry.granted = r.granted
    ∧ x.entry.gross = (s.getChan p).runGross ∧ x.entry.standard = (s.getChan p).runStd ∧ x.entry.vcf = (s.getChan p).vcf
    ∧ x.entry.clamped = r.clamped ∧ x.entry.dropout = r.dropout ∧ x.entry.tempHeld = r.tempHeld
    ∧ x.entry.tank = r.tank ∧ x.entry.product = r.product ∧ x.entry.shift = r.shift ∧ x.entry.hours = r.hours
    ∧ x.entry.requested = r.requested ∧ x.entry.limiter = r.limiter
    ∧ x.entry.duration = (match r.firstFlowing with
      | some f => min max32 ((s.loader.clockMs - f) / 1000)
      | none => 0) := by
  obtain ⟨hgross, hstd, hvcf⟩ := State.getChan_released s p r
  have hclock : (s.released p r).loader.clockMs = s.loader.clockMs :=
    (State.released_keeps s p r).loader_proj (·.clockMs) fun _ => rfl
  obtain ⟨v, b, a, hd⟩ := State.finalRecord_eq (s.released p r) p r reason
  refine ⟨_, State.getLast_endRun hr hk, rfl, ?_⟩
  rw [hd, ← hgross, ← hstd, ← hvcf, ← hclock]
  exact ⟨rfl, rfl, rfl, rfl, rfl, rfl, rfl, rfl, rfl, rfl, rfl, rfl, rfl, rfl, rfl, rfl, rfl, rfl, rfl⟩

section
variable (hw : ∀ q ∈ s.waiting r.tank, q = p)
include hw

omit hk in
theorem State.account_released : (s.released p r).account r.tag = s.account r.tag := by
  unfold State.account
  rw [(State.released_booksKept hr hw).accounts]

/-- The close update on the tag's record, and its detachment (R49, steps 4 and 6). -/
theorem State.account_endRun : (s.endRun p reason).finish.account r.tag = (s.account r.tag).map fun c =>
    ⟨(closeRecord s.own r (s.getChan p).runStd c.acc).acc, c.attached - 1⟩ := by
  obtain ⟨-, hstd, -⟩ := State.getChan_released s p r
  refine ((State.endRun_finish hr hk).1.account _).trans ((State.account_detach _ _).trans ?_)
  rw [(State.closedOut_spec (s.released p r) p r reason).account, State.account_released hr hw,
    (State.released_keeps s p r).own, hstd, Option.map_map]
  rfl

/-- The ACCOUNT of a held record and the CLOSE stand in a queue that had room (R49, steps 4 and 5). -/
theorem State.queue_endRun (hp : s.Plain) (hlen : s.link.queue.length ≤ 5) : (s.endRun p reason).finish.link.queue
    = (s.released p r).link.queue ++ ((s.account r.tag).toList.map fun c =>
        newSlot ⟨0, .account (closeRecord s.own r (s.getChan p).runStd c.acc).acc⟩ false)
      ++ [newSlot ⟨r.terminal, .close (closeBody p ((s.released p r).finalRecord p r reason))⟩ false] := by
  obtain ⟨-, hstd, -⟩ := State.getChan_released s p r
  obtain ⟨hplain, hroom⟩ := (State.released_booksKept hr hw).plain hp
  obtain ⟨hout, hq⟩ := State.closedOut_plain hplain (by omega) p r reason
  rw [(State.endRun_finish hr hk).2 (by rw [hout.ready.2]; rfl), hq, State.account_released hr hw,
    (State.released_keeps s p r).own, hstd]

/-- With no other point waiting for the tank, the books of the ended run are closed (R49, steps 4 to 6). -/
theorem State.books_endRun :
    BooksClosed s (s.endRun p reason).finish p r ((s.released p r).finalRecord p r reason) where
  number := by
    have hnext := (State.released_booksKept hr hw).next
    obtain ⟨v, b, a, hd⟩ := State.finalRecord_eq (s.released p r) p r reason
    rw [(State.endRun_finish hr hk).1.nextLog, hd, ← hnext]
    exact ⟨rfl, (State.closedOut_spec (s.released p r) p r reason).next⟩
  held := by
    rintro c hc out rfl
    obtain ⟨-, hstd, -⟩ := State.getChan_released s p r
    have hd := State.finalRecord_of_held ((State.account_released hr hw).trans hc)
      (by rw [(State.released_keeps s p r).own, hstd]) reason
    rw [State.account_endRun hr hk hw, hc, hd]
    refine ⟨rfl, rfl, rfl, rfl, fun hp hlen => ⟨newSlot ⟨0, .account _⟩ false, ?_, rfl⟩⟩
    rw [State.queue_endRun hr hk hw hp hlen, hc]
    exact List.mem_append_left _ (List.mem_append_right _ (List.mem_singleton_self _))
  unheld := fun hc => by
    rw [State.account_endRun hr hk hw, hc, State.finalRecord_of_unheld ((State.account_released hr hw).trans hc)]
    exact ⟨rfl, rfl, rfl, rfl⟩
  close := fun hp hlen => by
    obtain ⟨hgross, hstd, hvcf⟩ := State.getChan_released s p r
    have hnext := (State.released_booksKept hr hw).next
    obtain ⟨v, b, a, hd⟩ := State.finalRecord_eq (s.released p r) p r reason
    refine ⟨_, by rw [State.queue_endRun hr hk hw hp hlen]; exact List.mem_append_right _ (List.mem_singleton_self _), ?_⟩
    rw [hd, ← faultedSummary_eq, ← hgross, ← hstd, ← hvcf, ← hnext]
    rfl

end

/-- R49: the run's end gives what `RunEnded` states. -/
theorem State.endRun_ended : RunEnded s (s.endRun p reason).finish p r reason := by
  obtain ⟨hrun, hvalve, htarget, hprime, hnoLift, hqueue, hhold, hstall, hprogress⟩ :=
    s.lingered_keeps p (s.getPoint p).stopped.unrun
  rw [← State.getPoint_endRun hr hk] at hrun hvalve htarget hprime hnoLift hqueue hhold hstall hprogress
  exact ⟨hrun, hvalve, htarget, ⟨hprime, hnoLift, hqueue, hhold, hstall, hprogress⟩, State.not_mem_lists_endRun hr hk,
    State.record_endRun hr hk, fun hw => ⟨_, State.getLast_endRun hr hk, State.books_endRun hr hk hw⟩⟩

end

end Sys2Proof.Machine
end

section
/-! PROOF. O29 and O31: a hang-up and a CANCEL in each state (R38, R45). -/
namespace Sys2Proof.Machine

/-! ### A recomputation and a point that does not wait (R66, R67) -/

/-- A point apart from its share of the capacity: its target and its commanded rate. -/
def Point.unshared (x : Point) : Point := { x with target := 0, valve := none }

/-- Point `p` stands as it stood apart from its share, and has joined no queue. -/
structure Unmoved (p : PointId) (s t : State) : Prop where
  point : (t.getPoint p).unshared = (s.getPoint p).unshared
  waiting : ∀ n, p ∈ t.waiting n → p ∈ s.waiting n

namespace Unmoved

variable {p : PointId} {s t u : State}

theorem refl (p : PointId) (s : State) : Unmoved p s s := ⟨rfl, fun _ => id⟩

theorem trans (h : Unmoved p s t) (g : Unmoved p t u) : Unmoved p s u :=
  ⟨g.point.trans h.point, fun n k => h.waiting n (g.waiting n k)⟩

theorem ite {c : Prop} [Decidable c] (h : Unmoved p s t) (g : Unmoved p s u) : Unmoved p s (if c then t else u) := by
  split <;> assumption

theorem of_aside (h : Aside p s t) : Unmoved p s t := ⟨by rw [h.point], h.waiting⟩

/-- What the share leaves of a point is read off it. -/
theorem read (h : Unmoved p s t) {α : Type} (k : Point → α) (hk : ∀ x, k x = k x.unshared) :
    k (t.getPoint p) = k (s.getPoint p) := by
  rw [hk, h.point, ← hk]

end Unmoved

namespace State

theorem setTarget_unmoved (s : State) (p q : PointId) (n : Nat) : Unmoved p s (s.setTarget q n) := by
  refine ⟨?_, fun _ => id⟩
  unfold setTarget
  rw [getPoint_modPoint]
  split
  · next h => rw [h]; rfl
  · rfl

theorem setTargets_unmoved (p : PointId) (l : List (PointId × Nat)) (s : State) :
    Unmoved p s (l.foldl (fun s e => s.setTarget e.1 e.2) s) := by
  induction l generalizing s with
  | nil => exact .refl p s
  | cons a l ih => exact (setTarget_unmoved s p a.1 a.2).trans (ih _)

theorem allotShares_unmoved (p : PointId) (s : State) (tank : Nat) : Unmoved p s (s.allotShares tank) := by
  have h : Unmoved p s (((s.targets tank).foldl (fun s e => s.setTarget e.1 e.2) s).modAllot tank fun t =>
      { t with own := ((s.targets tank).map (·.2)).sum }) :=
    (setTargets_unmoved p _ s).trans (.of_aside (Aside.modAllot _ _ _ (fun _ => rfl) (fun _ => id) fun _ => id))
  unfold allotShares
  dsimp only
  split
  · exact .ite (h.trans (.of_aside (queueDraw_aside _ tank))) h
  · exact h

theorem recomputeLoop_unmoved {p : PointId} (tank n : Nat) (s : State) (hw : p ∉ s.waiting tank) :
    Unmoved p s (s.recomputeLoop tank n) := by
  induction n generalizing s with
  | zero => exact .refl p s
  | succ n ih =>
    have heads := (retryHeads_aside tank (s.waiting tank).length s hw).trans (Aside.forEach
      (openedShort s (retryHeads tank (s.waiting tank).length s) tank) (fun p s => s.endOpening p)
      (fun q hm s => endOpening_aside s (ne_of_mem_openedShort hw hm)) _)
    have h := (Unmoved.of_aside heads).trans (allotShares_unmoved p _ tank)
    unfold recomputeLoop
    exact .ite h (h.trans (ih _ fun k => hw (h.waiting tank k)))

/-- R67: a recomputation changes no more than the share of a point that does not wait for the tank. -/
theorem recompute_unmoved {p : PointId} (s : State) (tank : Nat) (hw : p ∉ s.waiting tank) :
    Unmoved p s (s.recompute tank) := recomputeLoop_unmoved tank _ s hw

end State

/-! ### Events and frames heard -/

theorem blockEvent_of_up {s : State} (h : s.up = true) (f : State → State) : blockEvent f s = .next (f s).finish := by
  unfold blockEvent
  rw [if_pos h]
  rfl

theorem State.refresh_eq (s : State) (src : Nat) : ∃ l, s.refresh src = s.setPresence l := by
  unfold State.refresh
  split <;> exact ⟨_, rfl⟩

/-- A frame from a peer that names the station is taken after the refresh of its source (R166, R167). -/
theorem receiveNamed_of_named {s : State} {src tgt : Nat} (hup : s.up = true) (hsrc : s.FromPeer src) (htgt : s.Named tgt)
    (take : State → State) : receiveNamed src tgt take s = take (s.refresh src) := by
  obtain ⟨h1, h31, hown⟩ := hsrc
  obtain ⟨ht, h0⟩ := htgt
  obtain ⟨l, hl⟩ := s.refresh_eq src
  have hears : s.hears src = true := by simp [State.hears, hup, h1, h31, hown]
  have htargeted : (s.refresh src).targeted tgt = true := by
    rw [hl]
    simp only [State.targeted, Bool.or_eq_true, decide_eq_true_eq]
    exact Or.inr ht
  unfold receiveNamed receive
  rw [if_pos hears]
  dsimp only
  rw [if_pos htargeted, if_neg h0]

theorem exec_cancel_eq {s : State} {src tgt : Nat} (hup : s.up = true) (hsrc : s.FromPeer src) (htgt : s.Named tgt)
    (p : PointId) (run : Option Nat) : exec (.cancel src tgt (pointNum p) run) s
      = .next ((s.refresh src).takeCancel (pointNum p) run).finish := by
  show blockEvent _ s = _
  rw [blockEvent_of_up hup, receiveNamed_of_named hup hsrc htgt]

theorem exec_hangUp_eq {s : State} (hup : s.up = true) {p : PointId} {c : PointCfg} (hc : s.pointCfg p = some c)
    (hoff : (s.getPoint p).offHook = true) : exec (.hangUp p) s = .next (s.hangNozzle p).finish := by
  show blockEvent _ s = _
  rw [blockEvent_of_up hup]
  simp [State.nozzleSampled, hc, hoff]

/-! ### The end of a run told from before the event -/

/-- What stands in the points and in the presence table at the event's start, and the run's lifted flag, do not show in
what the end leaves. -/
theorem RunEnded.of_start {s t : State} {p : PointId} {r : RunRec} {reason : EndReason} (v : PerPoint Point)
    (l : List PresenceEntry) (b : Bool)
    (h : RunEnded { s with points := v, link := { s.link with presence := l } } t p { r with lifted := b } reason) :
    RunEnded s t p r reason where
  run := h.run
  valve := h.valve
  target := h.target
  timers := h.timers
  lists := h.lists
  record := h.record
  books := fun hw => by
    obtain ⟨x, hx, hb⟩ := h.books hw
    have hplain : s.Plain → State.Plain { s with points := v, link := { s.link with presence := l } } :=
      fun k => k.of_eq rfl rfl rfl
    refine ⟨x, hx, hb.number, fun c hc out ho => ?_, hb.unheld, fun k => hb.close (hplain k)⟩
    obtain ⟨haccount, hverdict, hsample, hanomaly, hqueue⟩ := hb.held c hc out ho
    exact ⟨haccount, hverdict, hsample, hanomaly, fun k => hqueue (hplain k)⟩

/-! ### The hang-up (R38) -/

/-- The nozzle on its hook, and lifted cleared while a run is live (R32). -/
def Point.hooked (x : Point) : Point :=
  { x with offHook := false, run := x.run.map fun r => { r with lifted := false } }

namespace State

section
variable {s : State} {p : PointId}

theorem hangNozzle_of_allots (h : (s.getPoint p).st = .flowing ∨ (s.getPoint p).st = .taper ∨ (s.getPoint p).st = .held) :
    s.hangNozzle p = (s.modPoint p Point.hooked).endRun p .hangup := by
  rcases h with h | h | h
  · simp only [hangNozzle, getPoint_modPoint_same, h]
    rfl
  · simp only [hangNozzle, getPoint_modPoint_same, h]
    rfl
  · simp only [hangNozzle, getPoint_modPoint_same, h]
    rfl

theorem hangNozzle_of_priming_or_ready (h : (s.getPoint p).st = .priming ∨ (s.getPoint p).st = .ready) :
    s.hangNozzle p = s.modPoint p Point.hooked := by
  rcases h with h | h
  · simp only [hangNozzle, getPoint_modPoint_same, h]
    rfl
  · simp only [hangNozzle, getPoint_modPoint_same, h]
    rfl

/-- The state in which a hung-up QUEUED point's tank is recomputed: the point READY and out of the queue (R34). -/
def backToReady (s : State) (p : PointId) (tank : Nat) : State :=
  ((s.modPoint p Point.hooked).enterReady p).modAllot tank fun t => { t with queue := t.queue.filter fun q => q != p }

theorem hangNozzle_of_queued (h : (s.getPoint p).st = .queued) {r : RunRec} (hr : (s.getPoint p).run = some r) :
    s.hangNozzle p = (s.backToReady p r.tank).recompute r.tank := by
  simp only [hangNozzle, getPoint_modPoint_same, h, hr, Option.map_some]
  rfl

theorem not_mem_waiting_backToReady (s : State) (p : PointId) (tank : Nat) : p ∉ (s.backToReady p tank).waiting tank := by
  have hfind := tankAllot_modAllot ((s.modPoint p Point.hooked).enterReady p) tank
    (fun t => { t with queue := t.queue.filter fun q => q != p }) fun _ => rfl
  unfold backToReady waiting
  rw [hfind]
  cases ((s.modPoint p Point.hooked).enterReady p).tankAllot tank <;> simp

theorem getPoint_backToReady {c : PointCfg} (hc : s.pointCfg p = some c) (tank : Nat) : (s.backToReady p tank).getPoint p
    = { (s.getPoint p).hooked with st := .ready, prime := none, queue := none, noLift := startTimer (secs c.noLift) } := by
  have hc' : (s.modPoint p Point.hooked).pointCfg p = some c := hc
  unfold backToReady enterReady
  rw [hc']
  dsimp only
  rw [getPoint_modAllot, getPoint_modPoint_same, getPoint_modPoint_same]

/-- The nozzle's hooking, and then what lifted's clearing changes. -/
theorem hooked_keeps (s : State) (p : PointId) :
    RunKeeps (s.setPoint p { s.getPoint p with offHook := false }) (s.modPoint p Point.hooked) := by
  have h : s.modPoint p Point.hooked = (s.setPoint p { s.getPoint p with offHook := false }).modPoint p fun x =>
      { x with run := x.run.map fun r => { r with lifted := false } } := by
    unfold modPoint
    rw [setPoint_setPoint, getPoint_setPoint_same]
    rfl
  rw [h]
  exact RunKeeps.modPoint _ p _ (fun _ => rfl) (fun _ => rfl) (fun _ => rfl) fun _ => rfl

theorem backToReady_keeps (s : State) (p : PointId) (tank : Nat) :
    RunKeeps (s.setPoint p { s.getPoint p with offHook := false }) (s.backToReady p tank) :=
  ((hooked_keeps s p).trans (enterReady_keeps _ p)).thenAllot fun _ => rfl

end

end State

section
variable {s : State} {p : PointId} {r : RunRec} (hr : (s.getPoint p).run = some r)
include hr

theorem run_hooked : ((s.modPoint p Point.hooked).getPoint p).run = some { r with lifted := false } := by
  rw [State.getPoint_modPoint_same]
  unfold Point.hooked
  rw [hr]
  rfl

/-- In FLOWING, TAPER and HELD the run ends with reason HANGUP. -/
theorem hangNozzle_ends (h : (s.getPoint p).st = .flowing ∨ (s.getPoint p).st = .taper ∨ (s.getPoint p).st = .held) :
    RunEnded s (s.hangNozzle p).finish p r .hangup ∧ LeftByEnd s (s.hangNozzle p).finish p
      ∧ RunFrame (s.setPoint p { s.getPoint p with offHook := false }) (s.hangNozzle p).finish := by
  rw [State.hangNozzle_of_allots h]
  refine ⟨?_, ?_, ?_⟩
  · exact RunEnded.of_start (s.modPoint p Point.hooked).points s.link.presence false
      (State.endRun_ended (run_hooked hr) rfl)
  · have hleft := State.endRun_left (run_hooked hr) (reason := .hangup) rfl
    unfold LeftByEnd at hleft
    rw [State.getPoint_modPoint_same] at hleft
    exact hleft
  · exact ((State.hooked_keeps s p).trans ((State.endRun_keeps _ p _).trans (State.finish_keeps _))).toRunFrame

/-- In QUEUED the point returns to READY, out of its tank's queue. -/
theorem hangNozzle_leaves_queue (h : (s.getPoint p).st = .queued) {c : PointCfg} (hc : s.pointCfg p = some c) :
    ((s.hangNozzle p).finish.getPoint p).st = .ready ∧ ((s.hangNozzle p).finish.getPoint p).queue = none
      ∧ ((s.hangNozzle p).finish.getPoint p).noLift = startTimer (secs c.noLift)
      ∧ ((s.hangNozzle p).finish.getPoint p).run = some { r with lifted := false }
      ∧ p ∉ (s.hangNozzle p).finish.waiting r.tank
      ∧ RunFrame (s.setPoint p { s.getPoint p with offHook := false }) (s.hangNozzle p).finish := by
  rw [State.hangNozzle_of_queued h hr]
  have hw := State.not_mem_waiting_backToReady s p r.tank
  have hmoved : Unmoved p (s.backToReady p r.tank) ((s.backToReady p r.tank).recompute r.tank).finish :=
    (State.recompute_unmoved _ r.tank hw).trans (.of_aside (Aside.requeues (State.finish_requeues _)))
  have hpoint := State.getPoint_backToReady hc r.tank
  refine ⟨?_, ?_, ?_, ?_, fun k => hw (hmoved.waiting _ k), ?_⟩
  · rw [hmoved.read (·.st) fun _ => rfl, hpoint]
  · rw [hmoved.read (·.queue) fun _ => rfl, hpoint]
  · rw [hmoved.read (·.noLift) fun _ => rfl, hpoint]
  · rw [hmoved.read (·.run) fun _ => rfl, hpoint]
    unfold Point.hooked
    rw [hr]
    rfl
  · exact ((State.backToReady_keeps s p r.tank).trans ((State.recompute_keeps _ _).trans
      (State.finish_keeps _))).toRunFrame

end

/-- Settles O29, by the state at the hang-up: a run's end, lifted's clearing alone, or the return to READY. -/
theorem hangUpFollowsR38 : Obligations.HangUpFollowsR38 := by
  rintro s p ⟨hup, hmarks⟩ - c hc hoff _ rfl r hr
  rw [exec_hangUp_eq hup hc hoff]
  refine ⟨fun h => ⟨_, rfl, hangNozzle_ends hr h⟩, fun h => ?_, fun h => ⟨_, rfl, hangNozzle_leaves_queue hr h hc⟩⟩
  have hclear : (s.modPoint p Point.hooked).marks = EventMarks.clear := hmarks
  rw [State.hangNozzle_of_priming_or_ready h, State.finish_of_clear hclear]
  unfold State.modPoint Point.hooked
  rw [hr]
  rfl

/-! ### CANCEL (R45) -/

/-- A SEEKING point after the answer to its OPEN: in LINGER while its linger timer runs, else IDLE (R25). -/
def Point.unopened (x : Point) : Point :=
  { x with openReq := none, st := if x.linger.isSome = true then .linger else .idle }

namespace State

/-- The DENY of a pending OPEN: the frame, the seek's waiting list, and the OPEN gone (R25). -/
theorem denyPending_eq {s : State} {p : PointId} {o : OpenReq} (h : (s.getPoint p).openReq = some o) (reason : DenyReason) :
    s.denyPending p reason = ((s.queueFrame ⟨o.terminal, .deny (pointNum p) o.tag reason⟩).leaveSeeks p).modPoint p fun x =>
      { x with openReq := none } := by
  unfold denyPending
  rw [h]
  rfl

/-- A CANCEL without a run number in SEEKING (R25): the DENY CANCELLED is queued, no seek waits for the point any more, and
the point returns to LINGER or IDLE. -/
theorem takeCancel_of_seeking {s : State} {p : PointId} (hst : (s.getPoint p).st = .seeking) {o : OpenReq}
    (ho : (s.getPoint p).openReq = some o) : s.takeCancel (pointNum p) none
      = ((s.queueFrame ⟨o.terminal, .deny (pointNum p) o.tag .cancelled⟩).leaveSeeks p).setPoint p
        (s.getPoint p).unopened := by
  have hpoint : ((s.queueFrame ⟨o.terminal, .deny (pointNum p) o.tag .cancelled⟩).leaveSeeks p).getPoint p = s.getPoint p :=
    (queueFrame_requeues _ s).getPoint p
  have htake : s.takeCancel (pointNum p) none = (s.denyPending p .cancelled).leaveSeeking p := by
    unfold takeCancel
    rw [pointOf_pointNum]
    dsimp only
    rw [if_pos hst, if_pos rfl]
  rw [htake, denyPending_eq ho]
  unfold leaveSeeking modPoint
  rw [setPoint_setPoint, getPoint_setPoint_same, hpoint]
  exact congrArg _ (if_pos hst)

/-- A CANCEL that reaches a live run ends it (R45). -/
theorem takeCancel_of_run {s : State} {p : PointId} (hst : (s.getPoint p).st ≠ .seeking) {run : Option Nat}
    (h : s.runNamed p run = true) : s.takeCancel (pointNum p) run = s.endRun p .cancel := by
  unfold takeCancel
  rw [pointOf_pointNum]
  dsimp only
  rw [if_neg hst, if_pos h]

/-- A CANCEL with a run number in SEEKING, and one that reaches no live run, is ignored (R41, R45). -/
theorem takeCancel_of_ignored {s : State} {p : PointId} {run : Option Nat}
    (h : (s.getPoint p).st = .seeking ∧ run ≠ none ∨ (s.getPoint p).st ≠ .seeking ∧ s.runNamed p run = false) :
    s.takeCancel (pointNum p) run = s := by
  unfold takeCancel
  rw [pointOf_pointNum]
  dsimp only
  rcases h with ⟨hst, hrun⟩ | ⟨hst, hrun⟩
  · rw [if_pos hst, if_neg hrun]
  · rw [if_neg hst, if_neg (by rw [hrun]; exact Bool.false_ne_true)]

/-- Without a live run no request reaches one (R41). -/
theorem runNamed_of_no_run {s : State} {p : PointId} (h : (s.getPoint p).run = none) (run : Option Nat) :
    s.runNamed p run = false := by
  unfold runNamed
  rw [h]

end State

section
variable {x : Point} (hx : x.Ok)
include hx

theorem Point.Ok.not_seeking {r : RunRec} (h : x.run = some r) : x.st ≠ .seeking := by
  intro hst
  have hrun := hx.run
  rw [h, hst] at hrun
  cases hrun

theorem Point.Ok.seeking {o : OpenReq} (h : x.openReq = some o) : x.st = .seeking := by
  have hopen := hx.openReq
  rw [h] at hopen
  simpa using hopen.symm

/-- IDLE, LINGER and LOCKED are not run states (2.2). -/
theorem Point.Ok.run_eq_none (h : x.st = .idle ∨ x.st = .linger ∨ x.st = .locked) : x.run = none := by
  have hrun := hx.run
  rcases h with h | h | h
  all_goals
    rw [h] at hrun
    exact Option.not_isSome_iff_eq_none.mp (by rw [hrun]; exact Bool.false_ne_true)

end

/-- A CANCEL that reaches a live run, told from before its source's refresh. -/
theorem cancel_ends {s : State} {p : PointId} {r : RunRec} (hr : (s.getPoint p).run = some r) (src : Nat) :
    RunEnded s ((s.refresh src).endRun p .cancel).finish p r .cancel
      ∧ LeftByEnd s ((s.refresh src).endRun p .cancel).finish p
      ∧ RunFrame (s.refresh src) ((s.refresh src).endRun p .cancel).finish := by
  obtain ⟨l, hl⟩ := s.refresh_eq src
  rw [hl]
  have hr' : ((s.setPresence l).getPoint p).run = some r := hr
  exact ⟨RunEnded.of_start s.points l r.lifted (State.endRun_ended hr' rfl), State.endRun_left hr' rfl,
    ((State.endRun_keeps _ p _).trans (State.finish_keeps _)).toRunFrame⟩

/-- What the answer to a CANCEL in SEEKING leaves: the point, the seeks, the queue and the other points (R25). -/
structure OpenCancelled (s t : State) (p : PointId) (o : OpenReq) : Prop where
  point : t.getPoint p = (s.getPoint p).unopened
  seeks : ∀ k ∈ t.accounts.seeks, p ∉ k.waiting
  length : t.accounts.seeks.length = s.accounts.seeks.length
  queue : s.Plain → t.link.queue = (place s.link.queue ⟨o.terminal, .deny (pointNum p) o.tag .cancelled⟩ false).1
  others : ∀ q, q ≠ p → t.getPoint q = s.getPoint q

theorem takeCancel_of_open {s : State} {p : PointId} (hst : (s.getPoint p).st = .seeking) {o : OpenReq}
    (ho : (s.getPoint p).openReq = some o) : OpenCancelled s (s.takeCancel (pointNum p) none).finish p o := by
  rw [State.takeCancel_of_seeking hst ho]
  generalize hf : (⟨o.terminal, .deny (pointNum p) o.tag .cancelled⟩ : Frame) = f
  have hqueued := State.queueFrame_requeues f s
  have hfinish := State.finish_requeues (((s.queueFrame f).leaveSeeks p).setPoint p (s.getPoint p).unopened)
  have hseeks : (((s.queueFrame f).leaveSeeks p).setPoint p (s.getPoint p).unopened).finish.accounts.seeks
      = s.accounts.seeks.map fun k => { k with waiting := k.waiting.filter fun q => q != p } := by
    rw [hfinish.accounts, ← hqueued.accounts]
    rfl
  refine ⟨?_, ?_, ?_, fun hp => ?_, fun q hq => ?_⟩
  · rw [hfinish.getPoint, State.getPoint_setPoint_same]
  · rw [hseeks]
    intro k hk
    obtain ⟨j, -, rfl⟩ := List.mem_map.mp hk
    simp
  · rw [hseeks, List.length_map]
  · have hclear : (((s.queueFrame f).leaveSeeks p).setPoint p (s.getPoint p).unopened).marks = EventMarks.clear :=
      (hp.queueFrame f).ready.2
    rw [State.finish_of_clear hclear, hf]
    exact congrArg (·.link.queue) (hp.queueFrame_eq f)
  · rw [hfinish.getPoint, State.getPoint_setPoint, if_neg hq]
    exact hqueued.getPoint q

/-- The presence table does not show in the answer. -/
theorem OpenCancelled.of_presence {s t : State} {p : PointId} {o : OpenReq} {l : List PresenceEntry}
    (h : OpenCancelled (s.setPresence l) t p o) : OpenCancelled s t p o :=
  ⟨h.point, h.seeks, h.length, fun hp => h.queue (hp.of_eq rfl rfl rfl), h.others⟩

/-- A CANCEL of a pending OPEN, told from before its source's refresh. -/
theorem cancel_answers_open {s : State} {p : PointId} (hst : (s.getPoint p).st = .seeking) {o : OpenReq}
    (ho : (s.getPoint p).openReq = some o) (src : Nat) :
    OpenCancelled s ((s.refresh src).takeCancel (pointNum p) none).finish p o := by
  obtain ⟨l, hl⟩ := s.refresh_eq src
  rw [hl]
  exact (takeCancel_of_open (s := s.setPresence l) hst ho).of_presence

/-- Settles O31, by what the CANCEL finds at the point: a live run, a pending OPEN, or nothing that it names. -/
theorem cancelFollowsR45 : Obligations.CancelFollowsR45 := by
  rintro s src tgt p run ⟨hup, hmarks⟩ hpoints hsrc htgt
  rw [exec_cancel_eq hup hsrc htgt]
  obtain ⟨l, hl⟩ := s.refresh_eq src
  have hpoint : (s.refresh src).getPoint p = s.getPoint p := by rw [hl]; rfl
  have hnamed : (s.refresh src).runNamed p run = s.runNamed p run := by rw [hl]; rfl
  refine ⟨fun r hr h => ⟨_, rfl, ?_⟩, ?_, fun h => ?_⟩
  · have hst := (hpoints p).not_seeking hr
    rw [State.takeCancel_of_run (by rw [hpoint]; exact hst) (hnamed.trans h)]
    exact cancel_ends hr src
  · rintro o ho rfl
    obtain ⟨hfreed, hseeks, hlength, hqueue, hothers⟩ := cancel_answers_open ((hpoints p).seeking ho) ho src
    exact ⟨_, rfl, hfreed, hseeks, hlength, hqueue, hothers,
      ((State.takeCancel_keeps _ none _).trans (State.finish_keeps _)).toRunFrame⟩
  · have hignored : (s.getPoint p).st = .seeking ∧ run ≠ none
        ∨ (s.getPoint p).st ≠ .seeking ∧ s.runNamed p run = false := by
      have hfree : (s.getPoint p).st = .idle ∨ (s.getPoint p).st = .linger ∨ (s.getPoint p).st = .locked →
          s.runNamed p run = false := fun h => State.runNamed_of_no_run ((hpoints p).run_eq_none h) run
      rcases h with h | h | h | h | h
      · exact Or.inl h
      · exact Or.inr ⟨by rw [h]; decide, hfree (Or.inl h)⟩
      · exact Or.inr ⟨by rw [h]; decide, hfree (Or.inr (Or.inl h))⟩
      · exact Or.inr ⟨by rw [h]; decide, hfree (Or.inr (Or.inr h))⟩
      · exact Or.inr h
    rw [← hpoint, ← hnamed] at hignored
    rw [State.takeCancel_of_ignored hignored, State.finish_of_clear (by rw [hl]; exact hmarks)]

end Sys2Proof.Machine
end

section
/-! PROOF. O45: edit numbers compared with wrapping (R115), and records of which neither supersedes the other (R120, R124). -/
namespace Sys2Proof.Machine

/-! ### Edit numbers (R115) -/

/-- The word difference of two edit numbers is R115's (a − b) mod 65536. -/
theorem edit_sub_toNat (a b : Word16) : (a - b).toNat = (a.toNat + 65536 - b.toNat) % 65536 := by
  rw [BitVec.toNat_sub]
  have := b.isLt
  omega

theorem newer_iff (a b : Word16) : newer a b = true ↔
    1 ≤ (a.toNat + 65536 - b.toNat) % 65536 ∧ (a.toNat + 65536 - b.toNat) % 65536 ≤ 32767 := by
  unfold newer
  rw [Bool.and_eq_true, decide_eq_true_iff, decide_eq_true_iff, edit_sub_toNat]

@[simp] theorem newer_self (a : Word16) : newer a a = false := by
  simp [newer]

section
variable {a b : Word16} (h : (a.toNat + 65536 - b.toNat) % 65536 = 32768)
include h

/-- Edits 32,768 apart are so either way round. -/
theorem edits_half_apart_symm : (b.toNat + 65536 - a.toNat) % 65536 = 32768 := by
  have := a.isLt
  have := b.isLt
  omega

theorem newer_of_half_apart : newer a b = false := by
  rw [Bool.eq_false_iff, ne_eq, newer_iff, h]
  decide

theorem ne_of_half_apart : a ≠ b := by
  rintro rfl
  omega

end

/-- The origin station decides between equal edits only, so it decides nothing between edits 32,768 apart. -/
theorem supersedes_of_half_apart {x y : AccountRec} (h : (x.edit.toNat + 65536 - y.edit.toNat) % 65536 = 32768) :
    supersedes x y = false := by
  unfold supersedes
  rw [newer_of_half_apart h, beq_eq_false_iff_ne.mpr (ne_of_half_apart h)]
  rfl

/-! ### An ACCOUNT that changes nothing (R120, R124) -/

/-- Rows that the change leaves as they are make a table that it leaves as it is. -/
theorem modWhere_of_fixed {α : Type} {q : α → Bool} {f : α → α} {l : List α} (h : ∀ a ∈ l, q a = true → f a = a) :
    modWhere q f l = l := by
  rw [← List.map_id (modWhere q f l), map_modWhere id q f l h, List.map_id]

theorem Seek.offer_of_not_supersedes {k : Seek} {c : AccountRec × Nat} (hc : k.candidate = some c) {r : AccountRec}
    (h : supersedes r c.1 = false) (src : Nat) : k.offer r src = k := by
  unfold Seek.offer
  rw [hc]
  simp [h]

/-- A frame from a peer that addresses the station is taken after the refresh of its source (R166, R167). -/
theorem receive_of_addressed {s : State} {src tgt : Nat} (hup : s.up = true) (hsrc : s.FromPeer src)
    (htgt : s.Addressed tgt) (take : State → State) : receive src tgt take s = take (s.refresh src) := by
  obtain ⟨h1, h31, hown⟩ := hsrc
  obtain ⟨l, hl⟩ := s.refresh_eq src
  have hears : s.hears src = true := by simp [State.hears, hup, h1, h31, hown]
  have htargeted : (s.refresh src).targeted tgt = true := by
    rw [hl]
    simp only [State.targeted, Bool.or_eq_true, decide_eq_true_eq]
    exact htgt
  unfold receive
  rw [if_pos hears]
  dsimp only
  rw [if_pos htargeted]

theorem exec_account_eq {s : State} {src tgt : Nat} (hup : s.up = true) (hsrc : s.FromPeer src) (htgt : s.Addressed tgt)
    (r : AccountRec) : exec (.account src tgt r) s = .next ((s.refresh src).takeAccount src r).finish := by
  show blockEvent _ s = _
  rw [blockEvent_of_up hup, receive_of_addressed hup hsrc htgt]

namespace State

/-- The refresh of a frame's source touches the presence table alone, so no record and no seek. -/
@[simp] theorem refresh_accounts (s : State) (src : Nat) : (s.refresh src).accounts = s.accounts := by
  obtain ⟨l, hl⟩ := s.refresh_eq src
  rw [hl, setPresence_accounts]

@[simp] theorem refresh_marks (s : State) (src : Nat) : (s.refresh src).marks = s.marks := by
  obtain ⟨l, hl⟩ := s.refresh_eq src
  rw [hl, setPresence_marks]

@[simp] theorem account_refresh (s : State) (src : Nat) (tag : Tag) : (s.refresh src).account tag = s.account tag := by
  unfold account
  rw [refresh_accounts]

@[simp] theorem seekFor_refresh (s : State) (src : Nat) (tag : Tag) : (s.refresh src).seekFor tag = s.seekFor tag := by
  unfold seekFor
  rw [refresh_accounts]

/-- One seek is pending for each tag (R122), so the one found for a tag is the only one of that tag. -/
theorem eq_of_seekFor {s : State} {tag : Tag} {k : Seek} (hk : s.seekFor tag = some k) (hok : s.accounts.Ok)
    {x : Seek} (hx : x ∈ s.accounts.seeks) (htag : (x.tag == tag) = true) : x = k := by
  obtain ⟨-, -, -, hnodup⟩ := hok
  unfold seekFor at hk
  have hktag : (k.tag == tag) = true := by simpa using List.find?_some hk
  exact List.inj_on_of_nodup_map hnodup hx (List.mem_of_find?_eq_some hk) ((eq_of_beq htag).trans (eq_of_beq hktag).symm)

/-- R124: a record that does not supersede the held one changes nothing. -/
theorem takeAccount_of_held {s : State} {r : AccountRec} {c : CacheRec} (hc : s.account r.tag = some c)
    (hk : s.seekFor r.tag = none) (h : supersedes r c.acc = false) (src : Nat) : s.takeAccount src r = s := by
  unfold takeAccount
  simp [hc, hk, h]

/-- R120: a record that does not supersede the pending seek's candidate changes nothing. -/
theorem takeAccount_of_candidate {s : State} {r : AccountRec} {k : Seek} {c : AccountRec × Nat}
    (hk : s.seekFor r.tag = some k) (hok : s.accounts.Ok) (hc : k.candidate = some c) (h : supersedes r c.1 = false)
    (src : Nat) : s.takeAccount src r = s := by
  have hseeks : modWhere (·.tag == r.tag) (Seek.offer r src) s.accounts.seeks = s.accounts.seeks :=
    modWhere_of_fixed fun x hx htag => by
      rw [eq_of_seekFor hk hok hx htag]
      exact Seek.offer_of_not_supersedes hc h src
  unfold takeAccount
  rw [hk]
  dsimp only
  rw [hseeks]
  exact ite_self s

end State

section
variable {s : State} {src tgt : Nat} {r : AccountRec} (hready : s.Ready) (hsrc : s.FromPeer src) (htgt : s.Addressed tgt)
include hready hsrc htgt

/-- An ACCOUNT that the Account Cache does nothing with leaves the refresh of its source. -/
theorem exec_account_of_unchanged (h : (s.refresh src).takeAccount src r = s.refresh src) :
    exec (.account src tgt r) s = .next (s.refresh src) := by
  obtain ⟨hup, hmarks⟩ := hready
  rw [exec_account_eq hup hsrc htgt, h, State.finish_of_clear (by rw [State.refresh_marks, hmarks])]

theorem exec_account_of_held {c : CacheRec} (hc : s.account r.tag = some c) (hk : s.seekFor r.tag = none)
    (h : supersedes r c.acc = false) : exec (.account src tgt r) s = .next (s.refresh src) :=
  exec_account_of_unchanged hready hsrc htgt
    (State.takeAccount_of_held ((s.account_refresh src r.tag).trans hc) ((s.seekFor_refresh src r.tag).trans hk) h src)

theorem exec_account_of_candidate {k : Seek} (hk : s.seekFor r.tag = some k) (hok : s.Ok) {c : AccountRec × Nat}
    (hc : k.candidate = some c) (h : supersedes r c.1 = false) :
    exec (.account src tgt r) s = .next (s.refresh src) := by
  obtain ⟨-, -, haccounts, -⟩ := hok
  exact exec_account_of_unchanged hready hsrc htgt
    (State.takeAccount_of_candidate ((s.seekFor_refresh src r.tag).trans hk)
      (by rw [State.refresh_accounts]; exact haccounts) hc h src)

end

/-- Settles O45, by R115's difference of two edit numbers: 32,768 is newer neither way and is no equality, so the record
heard supersedes neither the held record nor the candidate. -/
theorem editNumbersCompareWithWrapping : Obligations.EditNumbersCompareWithWrapping := by
  refine ⟨newer_iff, newer_self, fun a b h => ?_, fun _ _ => rfl, fun s src tgt r hready hsrc htgt => ⟨?_, ?_⟩⟩
  · exact ⟨newer_of_half_apart h, newer_of_half_apart (edits_half_apart_symm h), ne_of_half_apart h⟩
  · intro c hc hk h
    exact exec_account_of_held hready hsrc htgt hc hk (supersedes_of_half_apart h)
  · intro k hk hok c hc h
    exact exec_account_of_candidate hready hsrc htgt hk hok hc (supersedes_of_half_apart h)

end Sys2Proof.Machine
end

section
/-! PROOF. O53: log numbers from power-on on, their ages and places, and their order in the ring (R155). -/
namespace Sys2Proof.Machine

/-! ### Numbers and ages -/

theorem max32_eq : max32 = 4294967295 := rfl

@[simp] theorem nextLogNumber_max32 : nextLogNumber max32 = 1 := if_pos rfl

theorem nextLogNumber_of_ne {n : Nat} (h : n ≠ max32) : nextLogNumber n = n + 1 := if_neg h

/-- A number that comes before a log number is in range itself. -/
theorem le_of_nextLogNumber_le {n : Nat} (h : nextLogNumber n ≤ max32) : n ≤ max32 := by
  by_cases hn : n = max32
  · exact Nat.le_of_eq hn
  · rw [nextLogNumber_of_ne hn] at h
    omega

/-- The age is R155's (next log number − N) mod 4,294,967,295. -/
theorem logAge_eq_emod {n : Nat} (next : Nat) (hn : n ≤ 4294967295) :
    (logAge next n : Int) = ((next : Int) - n) % 4294967295 := by
  simp only [logAge, max32_eq]
  omega

@[simp] theorem logAge_self (next : Nat) : logAge next next = 0 := by
  unfold logAge
  rw [Nat.add_sub_cancel_left, Nat.mod_self]

/-- The number before a log number is one older; the wrap that skips 0 does not show in the ages. -/
theorem logAge_of_nextLogNumber {next n : Nat} (hnext : next ≤ max32) (h : nextLogNumber n ≤ max32)
    (hage : logAge next (nextLogNumber n) + 1 < max32) : logAge next n = logAge next (nextLogNumber n) + 1 := by
  by_cases hn : n = max32
  · subst hn
    rw [nextLogNumber_max32] at hage ⊢
    simp only [logAge, max32_eq] at *
    omega
  · rw [nextLogNumber_of_ne hn] at h hage ⊢
    simp only [logAge, max32_eq] at *
    omega

/-! ### Places -/

theorem logPlace_of_held {next h n : Nat} (hh : h ≤ 256) (h1 : 1 ≤ logAge next n) (hle : logAge next n ≤ h) :
    logPlace next h n = .held := by
  unfold logPlace
  dsimp only
  rw [if_neg (by omega), if_pos hle]

theorem logPlace_of_older {next h n : Nat} (hlt : h + 1 ≤ logAge next n) (hle : logAge next n ≤ 2147483647) :
    logPlace next h n = .older := by
  unfold logPlace
  dsimp only
  rw [if_neg (by omega), if_neg (by omega)]

theorem logPlace_of_newer {next n : Nat} (h : Nat) (hage : logAge next n = 0 ∨ 2147483648 ≤ logAge next n) :
    logPlace next h n = .newer := if_pos hage

/-! ### The order of the held records -/

/-- The number that follows those before `l`: that of `l`'s first record, or the next log number. -/
def firstNumber (next : Nat) : List LogRec → Nat
  | [] => next
  | r :: _ => r.entry.number

theorem consecutive_cons (next : Nat) (r : LogRec) (l : List LogRec) : consecutive next (r :: l) = true ↔
    nextLogNumber r.entry.number = firstNumber next l ∧ consecutive next l = true := by
  cases l <;> simp [consecutive, firstNumber]

section
variable {next : Nat} (hnext : next ≤ max32)
include hnext

/-- The first of consecutive records is as old as there are records. -/
theorem logAge_firstNumber {l : List LogRec} (hl : consecutive next l = true) (hlen : l.length < max32) :
    firstNumber next l ≤ max32 ∧ logAge next (firstNumber next l) = l.length := by
  induction l with
  | nil => exact ⟨hnext, logAge_self next⟩
  | cons r l ih =>
    obtain ⟨hr, htail⟩ := (consecutive_cons next r l).mp hl
    rw [List.length_cons] at hlen ⊢
    obtain ⟨hle, hage⟩ := ih htail (by omega)
    rw [← hr] at hle hage
    refine ⟨le_of_nextLogNumber_le hle, ?_⟩
    show logAge next r.entry.number = _
    rw [logAge_of_nextLogNumber hnext hle (by omega), hage]

theorem logAge_getElem {l : List LogRec} (hl : consecutive next l = true) (hlen : l.length < max32) (i : Nat)
    (h : i < l.length) : logAge next l[i].entry.number = l.length - i := by
  induction l generalizing i with
  | nil => exact absurd h (Nat.not_lt_zero i)
  | cons r l ih =>
    cases i with
    | zero => exact (logAge_firstNumber hnext hl hlen).2
    | succ i =>
      obtain ⟨-, htail⟩ := (consecutive_cons next r l).mp hl
      rw [List.length_cons] at hlen h ⊢
      rw [List.getElem_cons_succ, ih htail (by omega) i (by omega)]
      omega

end

/-! ### The end of LOADING (R177) -/

namespace State

theorem discardWindow_log (s : State) (tank : Nat) : (s.discardWindow tank).log = s.log := by
  unfold discardWindow
  split
  · rfl
  · split <;> rfl

theorem queueStock_requeues (s : State) (tank value : Nat) : Requeues s (s.queueStock tank value) := by
  unfold queueStock
  split
  · exact queueFrame_requeues _ s
  · exact .refl s

theorem repeatStock_nextLog (s : State) (tank : Nat) : (s.repeatStock tank).log.next = s.log.next := by
  unfold repeatStock
  split
  · exact (queueStock_requeues _ tank _).nextLog
  · rfl

/-- RECEIVING writes no delivery record. -/
theorem setReceiving_nextLog (s : State) (tank : Nat) : (s.setReceiving tank).log.next = s.log.next := by
  unfold setReceiving
  rw [repeatStock_nextLog, discardWindow_log]
  rfl

theorem inOrder_nextLog {α : Type} (l : List α) {f : α → State → State} (h : ∀ a s, (f a s).log.next = s.log.next)
    (s : State) : (s.inOrder l f).log.next = s.log.next := by
  unfold inOrder
  induction l generalizing s with
  | nil => rfl
  | cons a l ih => exact (ih (f a s)).trans (h a s)

theorem firstLook_nextLog (s : State) : s.firstLook.log.next = s.log.next :=
  inOrder_nextLog _ (fun tank s => setReceiving_nextLog s tank) s

/-- The end of LOADING starts from the log of power-on, and neither the first look nor the PRESENCE writes a record. -/
theorem endLoading_nextLog (mem : Option (List Byte)) (fill : List Bool) (s : State) :
    (s.endLoading mem fill).log.next = 1 := by
  unfold endLoading queuePresence
  dsimp only
  refine (queueFrame_requeues _ _).nextLog.trans ?_
  split
  · exact firstLook_nextLog _
  · rfl

end State

theorem exec_imageCheckDone_nextLog {s : State} (h : s.loader.phase = .loading) (mem : Option (List Byte))
    (fill : List Bool) : ∃ t, exec (.imageCheckDone mem fill) s = .next t ∧ t.log.next = 1 :=
  ⟨_, if_pos h, (State.finish_requeues _).nextLog.trans (s.endLoading_nextLog mem fill)⟩

/-- Settles O53. The order of the held records goes by induction over the ring from its newest record: the number before a
log number is one older, across the wrap too. -/
theorem logNumbersFollowR155 : Obligations.LogNumbersFollowR155 := by
  refine ⟨fun s mem fill hloading => ⟨⟨_, rfl, rfl⟩, ⟨_, rfl, rfl⟩, exec_imageCheckDone_nextLog hloading mem fill⟩,
    fun s d => ⟨?_, rfl⟩, fun next h n _ _ _ hn hh => ⟨logAge_eq_emod next hn, ?_, ?_, logPlace_of_newer h⟩,
    fun _ _ _ => rfl, fun l hok _ hnext i hi => ?_⟩
  · rw [State.writeRecord_getLast]
    rfl
  · rintro ⟨h1, hle⟩
    exact logPlace_of_held hh h1 hle
  · rintro ⟨hlt, hle⟩
    exact logPlace_of_older hlt hle
  · obtain ⟨hlen, hrun, -⟩ := hok
    have hring : Config.logRecords < max32 := by decide
    rw [logAge_getElem hnext hrun (by omega) i hi]

end Sys2Proof.Machine
end
